-- ==== Sys2Proof/Word.lean ====
section
/-! DEFINITION. The value types of the codec core: units of at most 9 bits, all unsigned
(spec/00_scope.md R6, R8), and the four error kinds (R11). -/

namespace Sys2Proof

/-- An 8-bit codeword, request argument or response value (R6 `CODE_W`). -/
abbrev Byte := BitVec 8

/-- A 4-bit data value, bit `i` being `d_i` (R6 `DATA_W`; spec/30_encoding.md R48). -/
abbrev Nibble := BitVec 4

/-- The 3-bit syndrome `{s2, s1, s0}` (R6 `SYND_W`; spec/41_syndrome.md R81). -/
abbrev Syndrome := BitVec 3

/-- A physical bit number 0..7 of a codeword (spec/30_encoding.md R56). -/
abbrev Position := BitVec 3

/-- The 2-bit code of an error kind (R6 `KIND_W`; spec/30_encoding.md R54). -/
abbrev KindCode := BitVec 2

/-- The 9-bit request word `{OP, ARG[7:0]}` (R6 `REQ_W`; spec/30_encoding.md R49). -/
abbrev RequestWord := BitVec 9

/-- The outcome DECODE reports (spec/00_scope.md R11; spec/30_encoding.md R54). -/
inductive ErrorKind where
  /-- "codeword consistent, data trustworthy" -/
  | noError
  /-- "exactly one of the 7 data/Hamming bits was flipped" -/
  | singleBitError
  /-- "the overall parity bit alone was flipped" -/
  | parityBitError
  /-- "two bits were flipped; detected but not correctable" -/
  | doubleBitError
  deriving DecidableEq, Repr

/-- The logical bits of a codeword (spec/00_scope.md R10). -/
structure LogicalWord where
  d0 : Bool
  d1 : Bool
  d2 : Bool
  d3 : Bool
  h0 : Bool
  h1 : Bool
  h2 : Bool
  p : Bool
  deriving DecidableEq, Repr

end Sys2Proof
end

