-- ==== Sys2Proof/Config.lean ====
section
/-! DEFINITION. What an implementation of the codec core fixes (spec/00_scope.md R6): the two
parameters, the width of a request, the bit layout, and the one free value. The values this
machine runs with are `Machine.params` (Machine/Params.lean). -/

namespace Sys2Proof.Config

/-- `ENC_HIGH_NIBBLE`: what an ENCODE word with `w[7:4] != 0` does (spec/30_encoding.md R57). -/
inductive EncHighNibble where
  /-- the request is refused: the REFUSED mark is set, nothing else is written -/
  | refuse
  /-- the request is ENCODE of `w[3:0]` -/
  | mask
  deriving DecidableEq, Repr

/-- `DOUBLE_FLIP`: the correction applied on DoubleBitError (spec/43_classify_correct.md R104). -/
inductive DoubleFlip where
  /-- flip position `T[S]` anyway -/
  | flip
  /-- leave the codeword as received -/
  | noflip
  /-- the decoded nibble is a free value -/
  | draw
  deriving DecidableEq, Repr

/-- The two parameters a model may take as arguments (spec/00_scope.md R6). -/
structure Params where
  encHighNibble : EncHighNibble
  doubleFlip : DoubleFlip
  deriving DecidableEq, Repr

/-- `REQ_W`: the width of a request word in bits (spec/00_scope.md R6). -/
abbrev requestWidth : Nat := 9

/-- The free nibble of the `k`-th draw under `DOUBLE_FLIP = draw` (`draw4()` of
spec/44_decode.md R118). No body: nothing constrains it (log entry 7). -/
opaque drawNibble : Nat → Nibble

/-- A bit layout: the physical position of each logical bit (spec/00_scope.md R2,
spec/30_encoding.md R47). -/
structure BitLayout where
  d0 : Fin 8
  d1 : Fin 8
  d2 : Fin 8
  d3 : Fin 8
  h0 : Fin 8
  h1 : Fin 8
  h2 : Fin 8
  p : Fin 8
  deriving DecidableEq, Repr

/-- The positions in the order d3 .. d0, h2 .. h0, p. -/
abbrev BitLayout.positions (l : BitLayout) : List (Fin 8) :=
  [l.d3, l.d2, l.d1, l.d0, l.h2, l.h1, l.h0, l.p]

/-- "L is a bijection from {d0..d3, h0..h2, p} to positions 0..7" (spec/30_encoding.md R47):
eight positions out of eight, no two equal. -/
abbrev BitLayout.IsBijection (l : BitLayout) : Prop := l.positions.Nodup

end Sys2Proof.Config
end

