-- ==== Sys2Proof/Syntax.lean ====
section
/-! DEFINITION. The operations of the codec core, one constructor per row of
spec/opcode_table.json (spec/30_encoding.md R50). -/

namespace Sys2Proof

/-- A request. Each carries the whole field ARG = w[7:0]: ENCODE itself checks the upper half of
its field (spec/40_encoder.md R75), so the constructor keeps it. -/
inductive Instr where
  /-- ENC: ENCODE of the nibble `arg[3:0]`; `arg[7:4]` must be 0 (R51, R57) -/
  | enc (arg : Byte)
  /-- DEC: DECODE of the codeword `c`; all 256 values are legal (R52) -/
  | dec (c : Byte)
  deriving DecidableEq, Repr

end Sys2Proof
end

