-- ==== Sys2Proof/Decode.lean ====
section
/-! DEFINITION. The request decoder, total on all 512 nine-bit words (spec/30_encoding.md R58),
the encoder of requests (R49 to R52), and the reading of a word of any width, which refuses by
name a word that does not fit. -/

namespace Sys2Proof

/-- Field OP = w[8] (R49). -/
def opField (w : RequestWord) : Bool := w.getLsbD 8

/-- Field ARG = w[7:0] (R49). -/
def argField (w : RequestWord) : Byte := w.extractLsb' 0 8

/-- OP = 0 selects ENCODE, OP = 1 selects DECODE (R50). The reserved ENCODE words are ENCODE
words too: ENCODE itself decides what they do (R57, R75). -/
def decodeRequest (w : RequestWord) : Instr :=
  match opField w with
  | false => .enc (argField w)
  | true => .dec (argField w)

/-- `w[8:0] = {OP, ARG}` (R49). -/
def requestWord (op : Bool) (arg : Byte) : RequestWord := BitVec.ofBool op ++ arg

/-- The word of a request (R49 to R52). -/
def encodeRequest : Instr → RequestWord
  | .enc arg => requestWord false arg
  | .dec c => requestWord true c

/-- Why a word is no request. -/
inductive DecodeError where
  /-- a bit above bit 8 is set: every request is exactly one 9-bit word
  (spec/30_encoding.md R59; the last arm of spec/60_exceptions.md R128) -/
  | wordTooWide (w : Nat)
  deriving DecidableEq, Repr

/-- Reads a word of any width: a word that does not fit 9 bits is refused by name. -/
def decodeWord (w : Nat) : Except DecodeError Instr :=
  if w < 2 ^ Config.requestWidth then .ok (decodeRequest (BitVec.ofNat 9 w))
  else .error (.wordTooWide w)

/-- The instruction in `nbits` bits `w`, bits above `nbits` being 0. -/
def decodeTableWord (nbits w : Nat) : Option Instr := (decodeWord (w % 2 ^ nbits)).toOption

end Sys2Proof
end

