-- ==== Sys2Proof/Machine/Flags.lean ====
section
/-! DEFINITION. The error kinds: their codes in RSP_KIND, and the classification. CORE has no
other status flag besides RSP_VALID (spec/10_state.md R26). -/

namespace Sys2Proof.Machine

/-- The code of an ErrorKind (spec/30_encoding.md R54). -/
def kindCode : ErrorKind → KindCode
  | .noError => 0b00#2
  | .singleBitError => 0b01#2
  | .parityBitError => 0b10#2
  | .doubleBitError => 0b11#2

/-- The classification table, "exhaustive, must match exactly" (spec/43_classify_correct.md R98). -/
def classify (s : Syndrome) (pm : Bool) : ErrorKind :=
  if s = 0#3 then (if pm then .parityBitError else .noError)
  else (if pm then .singleBitError else .doubleBitError)

end Sys2Proof.Machine
end

