-- ==== Sys2Proof/Machine/State.lean ====
section
/-! DEFINITION. The state of the codec core (spec/10_state.md R27), the reasons of
spec/60_exceptions.md R128, and the state right after reset
(spec/70_reset_and_hazards.md R144). -/

namespace Sys2Proof.Machine

/-- The faults of the model (R128). No step of this machine STOPS with one: a fault is recorded in
`State.faults` and the machine goes on (spec/10_state.md R21, R27; log entry 3). -/
inductive Fault where
  /-- Recorded by a host read of RSP_DATA or RSP_KIND while that register is unwritten
  (spec/10_state.md R21). Safe: the chip returns some unknown value, the model gives none. -/
  | readUnwrittenResponse
  deriving DecidableEq, Repr

/-- Why the machine has no meaning for an instruction. -/
inductive Refusal where
  /-- Raised by the arm of `exec` of an instruction that has no meaning yet; no arm raises it in
  this model. Safe: the machine stops. -/
  | notModelled (mnemonic : String)
  deriving DecidableEq, Repr

/-- The refusals of the spec's model (R128). No step STOPS with one: a refused request sets the
sticky REFUSED mark and the machine goes on (spec/10_state.md R22, R23; log entry 2). -/
inductive RefusalReason where
  /-- Raised by ENCODE when `w[7:4] != 0` and `ENC_HIGH_NIBBLE = refuse`
  (spec/30_encoding.md R57). Safe: the chip produces encode(w[3:0]). -/
  | encHighNibbleNonzero
  deriving DecidableEq, Repr

/-- A response register that carries a written status (spec/10_state.md R21). -/
structure RspReg (w : Nat) where
  /-- the stored bits; no port shows them while `written` is clear -/
  value : BitVec w
  /-- the written status of R21 -/
  written : Bool
  deriving DecidableEq, Repr

/-- A register after reset: unwritten (spec/70_reset_and_hazards.md R141). The stored bits are
DESIGN CHOICE zero (log entry 1). -/
def RspReg.unwritten (w : Nat) : RspReg w := { value := 0#w, written := false }

/-- What the host does in one step: the four input lines of spec/10_state.md R23, and which
response registers it reads during the step (R16 to R18, R25). -/
structure StepInput where
  rst : Bool
  reqValid : Bool
  reqOp : Bool
  reqArg : Byte
  readValid : Bool
  readData : Bool
  readKind : Bool
  deriving DecidableEq, Repr

/-- What the host sampled in one step (spec/70_reset_and_hazards.md R151); `none` where it did not
read, or read an unwritten register and got no value (R21). -/
structure Sample where
  valid : Option Bool
  data : Option Byte
  kind : Option KindCode
  deriving DecidableEq, Repr

/-- The state of the machine. -/
structure State where
  /-- RSP_VALID (spec/10_state.md R16) -/
  rspValid : Bool
  /-- RSP_DATA with its written status (R17, R21) -/
  rspData : RspReg 8
  /-- RSP_KIND with its written status (R18, R21) -/
  rspKind : RspReg 2
  /-- REFUSED, the sticky mark of a request without meaning (R22) -/
  refused : Bool
  /-- the faults recorded so far, oldest first; never cleared (R21, R27) -/
  faults : List Fault
  /-- what the host does in the steps to come, next first (R23, R151; log entry 4) -/
  inputs : List StepInput
  /-- what the host sampled in the steps so far, oldest first (R151; log entry 6) -/
  samples : List Sample
  /-- how many free nibbles have been drawn (spec/44_decode.md R118; log entry 7) -/
  draws : Nat
  deriving DecidableEq, Repr

/-- The launch state: the state after one reset step (spec/70_reset_and_hazards.md R143, R144). -/
def State.reset : State :=
  { rspValid := false
    rspData := RspReg.unwritten 8
    rspKind := RspReg.unwritten 2
    refused := false
    faults := []
    inputs := []
    samples := []
    draws := 0 }

end Sys2Proof.Machine
end

