-- ==== Sys2Proof/Machine/Ops.lean ====
section
/-! DEFINITION. The named operations over bits and over the response registers. CORE has no
memory (spec/20_memory.md R31), and taking an exception and returning from one do not exist
(spec/60_exceptions.md R126, R131, R132), so neither has an operation here. -/

namespace Sys2Proof.Machine

/-! ### Bits (spec/00_scope.md R7, R8) -/

/-- `parity(v)`: the XOR of all bits of `v`. -/
def parity (v : Byte) : Bool :=
  v.getLsbD 7 ^^ v.getLsbD 6 ^^ v.getLsbD 5 ^^ v.getLsbD 4 ^^
    v.getLsbD 3 ^^ v.getLsbD 2 ^^ v.getLsbD 1 ^^ v.getLsbD 0

/-- `popcount(v)`: the number of 1 bits of `v`. -/
def popcount (v : Byte) : Nat := (List.range 8).countP fun j => v.getLsbD j

/-- `1 << j`: the byte with only bit `j` set. -/
def oneHot (j : Nat) : Byte := 1#8 <<< j

/-- `{b7, b6, .., b0}`: a byte from its bits, the first in the most significant position. -/
def byteOfBits (b7 b6 b5 b4 b3 b2 b1 b0 : Bool) : Byte :=
  BitVec.ofBool b7 ++ BitVec.ofBool b6 ++ BitVec.ofBool b5 ++ BitVec.ofBool b4 ++
    BitVec.ofBool b3 ++ BitVec.ofBool b2 ++ BitVec.ofBool b1 ++ BitVec.ofBool b0

/-! ### Response registers (spec/10_state.md R16 to R18, R21) -/

/-- A write of a response register; it sets the written status (R21). -/
def writeReg {w : Nat} (v : BitVec w) : RspReg w := { value := v, written := true }

/-- The value the register's port gives the host: none while it is unwritten (R21). -/
def portValue {w : Nat} (r : RspReg w) : Option (BitVec w) :=
  if r.written then some r.value else none

/-- The end of every accepted request that is not refused: RSP_DATA and RSP_KIND are written, and
RSP_VALID becomes 1 (R16, R25, R26). -/
def respond (data : Byte) (kind : KindCode) (s : State) : State :=
  { s with rspValid := true, rspData := writeReg data, rspKind := writeReg kind }

/-- A step with `rst` = 1 (spec/70_reset_and_hazards.md R141): REFUSED and the fault list stay. -/
def resetOp (s : State) : State :=
  { s with rspValid := false, rspData := RspReg.unwritten 8, rspKind := RspReg.unwritten 2 }

/-- An idle step: RSP_VALID becomes 0, RSP_DATA and RSP_KIND hold (spec/10_state.md R24). -/
def idleOp (s : State) : State := { s with rspValid := false }

/-- `refuse(reason)`: the sticky REFUSED mark is set and nothing else is written
(spec/00_scope.md R9, spec/10_state.md R22, conflict C7). R128 has one reason, so the mark alone
records it. -/
def refuseRequest (_reason : RefusalReason) (s : State) : State := { s with refused := true }

/-- `draw4()`: the next free nibble (spec/44_decode.md R118, log entry 7). -/
def drawnNibble (s : State) : Nibble := Config.drawNibble s.draws

/-- The state in which that draw has been used. -/
def countDraw (s : State) : State := { s with draws := s.draws + 1 }

/-! ### The host's side of a step (spec/10_state.md R21, R23, R25) -/

/-- No reset, no request, no read: what the host does once its listed steps are over
(DESIGN CHOICE, log entry 5). -/
def idleInput : StepInput :=
  { rst := false, reqValid := false, reqOp := false, reqArg := 0#8,
    readValid := false, readData := false, readKind := false }

/-- What the host does in the next step. -/
def currentInput (s : State) : StepInput := s.inputs.headD idleInput

/-- A step in which the host presents the request `{op, arg}` and reads nothing. -/
def requestInput (op : Bool) (arg : Byte) : StepInput :=
  { idleInput with reqValid := true, reqOp := op, reqArg := arg }

/-- Puts `inp` in the place of what the host does in the next step. -/
def setNextInput (inp : StepInput) (s : State) : State := { s with inputs := inp :: s.inputs.tail }

/-- The value of one read: none if the host does not read, or if the register is unwritten. -/
def sampleReg {w : Nat} (asked : Bool) (r : RspReg w) : Option (BitVec w) :=
  if asked then portValue r else none

/-- The fault of one read: reading an unwritten register (R21). -/
def readFaults {w : Nat} (asked : Bool) (r : RspReg w) : List Fault :=
  if asked && !r.written then [.readUnwrittenResponse] else []

/-- What the host sees in a step: the values left by the previous step (R25). -/
def sampleOf (inp : StepInput) (s : State) : Sample :=
  { valid := if inp.readValid then some s.rspValid else none
    data := sampleReg inp.readData s.rspData
    kind := sampleReg inp.readKind s.rspKind }

/-- The faults of the host's reads in a step, RSP_DATA before RSP_KIND. -/
def faultsOf (inp : StepInput) (s : State) : List Fault :=
  readFaults inp.readData s.rspData ++ readFaults inp.readKind s.rspKind

/-- The host's reads of a step, and the passing of that step's entry of `inputs`. It changes no
response register: a read has no side effect on CORE (spec/20_memory.md R37). -/
def hostSide (inp : StepInput) (s : State) : State :=
  { s with
    faults := s.faults ++ faultsOf inp s
    samples := s.samples ++ [sampleOf inp s]
    inputs := s.inputs.tail }

end Sys2Proof.Machine
end

