-- ==== Sys2Proof/Machine/Syndrome.lean ====
section
/-! DEFINITION. The syndrome calculator (spec/41_syndrome.md R80 to R88). -/

namespace Sys2Proof.Machine

/-- `s0 = c[1] ^ c[6] ^ c[5] ^ c[4]` (R80). -/
def syndrome0 (c : Byte) : Bool := c.getLsbD 1 ^^ c.getLsbD 6 ^^ c.getLsbD 5 ^^ c.getLsbD 4

/-- `s1 = c[2] ^ c[7] ^ c[5] ^ c[4]` (R80). -/
def syndrome1 (c : Byte) : Bool := c.getLsbD 2 ^^ c.getLsbD 7 ^^ c.getLsbD 5 ^^ c.getLsbD 4

/-- `s2 = c[3] ^ c[7] ^ c[6] ^ c[4]` (R80). -/
def syndrome2 (c : Byte) : Bool := c.getLsbD 3 ^^ c.getLsbD 7 ^^ c.getLsbD 6 ^^ c.getLsbD 4

/-- `S = {s2, s1, s0}` (R81). -/
def syndrome (c : Byte) : Syndrome :=
  BitVec.ofBool (syndrome2 c) ++ BitVec.ofBool (syndrome1 c) ++ BitVec.ofBool (syndrome0 c)

/-- `parity_mismatch`: the XOR of the seven other bits differs from `c[0]` (R82). -/
def parityMismatch (c : Byte) : Bool :=
  (c.getLsbD 7 ^^ c.getLsbD 6 ^^ c.getLsbD 5 ^^ c.getLsbD 4 ^^
    c.getLsbD 3 ^^ c.getLsbD 2 ^^ c.getLsbD 1) != c.getLsbD 0

/-- Row mask of the parity-check matrix for `s_i` (R83). -/
def checkRow : Fin 3 → Byte
  | 0 => 0x72#8
  | 1 => 0xB4#8
  | 2 => 0xD8#8

/-- The parity-check matrix multiply: `s_i = parity(c & mask_i)` (R83). -/
def syndromeByMatrix (c : Byte) : Syndrome :=
  BitVec.ofBool (parity (c &&& checkRow 2)) ++ BitVec.ofBool (parity (c &&& checkRow 1)) ++
    BitVec.ofBool (parity (c &&& checkRow 0))

end Sys2Proof.Machine
end

