-- ==== Sys2Proof/Machine/PositionTable.lean ====
section
/-! DEFINITION. The error-position table T, CORE's only stored constant
(spec/42_position_table.md R90 to R96, spec/20_memory.md R32). -/

namespace Sys2Proof.Machine

/-- The stored entries `T[0] .. T[7]` (R91). Entry 0 is the sentinel, never used (R94). -/
def tableEntries : Vector Position 8 := #v[0, 1, 2, 5, 3, 6, 7, 4]

/-- `T[s]`: every 3-bit index is in range (R95). -/
def positionOf (s : Syndrome) : Position := tableEntries[s.toNat]'s.isLt

/-- The other form R95 allows: the syndrome decoded straight into a one-hot mask, bit `j` being
set exactly when `s` is column `j` of the parity-check matrix. -/
def maskOfSyndrome (s : Syndrome) : Byte :=
  BitVec.ofBoolListLE ((List.range 8).map fun j => syndrome (oneHot j) == s)

end Sys2Proof.Machine
end

