-- ==== Sys2Proof/Machine/Corrector.lean ====
section
/-! DEFINITION. The single-bit corrector: a multiplexer and an XOR
(spec/43_classify_correct.md R101 to R104, R109). The classification is in Machine/Flags.lean. -/

namespace Sys2Proof.Machine

/-- `pos`: position 0 (the overall parity bit) for `S = 0`, else `T[S]` (R101). -/
def flipPosition (s : Syndrome) : Position := if s = 0#3 then 0#3 else positionOf s

/-- `flip_en = pm | ((S != 0) & (DOUBLE_FLIP == flip))` (R101). -/
def flipEnable (d : Config.DoubleFlip) (s : Syndrome) (pm : Bool) : Bool :=
  pm || (s != 0#3 && d == .flip)

/-- `mask = flip_en ? (1 << pos) : 0x00` (R102). -/
def flipMask (d : Config.DoubleFlip) (s : Syndrome) (pm : Bool) : Byte :=
  if flipEnable d s pm then oneHot (flipPosition s).toNat else 0#8

/-- `classify_correct(c, S, pm)`: the kind and the corrected codeword `cc = c ^ mask`
(R98, R103, R109). -/
def classifyCorrect (d : Config.DoubleFlip) (c : Byte) (s : Syndrome) (pm : Bool) :
    ErrorKind × Byte :=
  (classify s pm, c ^^^ flipMask d s pm)

end Sys2Proof.Machine
end

