-- ==== Sys2Proof/Machine/Operands.lean ====
section
/-! DEFINITION. The operand fields of a request's ARG. Nothing is extended, scaled or shifted on
the way in (spec/30_encoding.md R53). -/

namespace Sys2Proof.Machine

/-- ENCODE's operand `n = w[3:0]` (R51). -/
def nibbleOperand (arg : Byte) : Nibble := arg.extractLsb' 0 4

/-- ENCODE's field `w[7:4]`, checked and otherwise unused (R51, R57). -/
def highField (arg : Byte) : Nibble := arg.extractLsb' 4 4

/-- DECODE's operand `c = w[7:0]` (R52). -/
def codewordOperand (arg : Byte) : Byte := arg

end Sys2Proof.Machine
end

