-- ==== Sys2Proof/Machine/Params.lean ====
section
/-! DEFINITION. The parameter values this machine runs with: the defaults of
spec/00_scope.md R6. -/

namespace Sys2Proof.Machine

/-- `ENC_HIGH_NIBBLE = refuse` (D8; log entry 2) and `DOUBLE_FLIP = flip` (D9; log entry 8). -/
def params : Config.Params := { encHighNibble := .refuse, doubleFlip := .flip }

end Sys2Proof.Machine
end

