-- ==== Sys2Proof/Machine/Decoder.lean ====
section
/-! DEFINITION. The decoder and DECODE (spec/44_decode.md R113 to R119). -/

namespace Sys2Proof.Machine

/-- The nibble of a corrected codeword, `cc[7:4]` (R113). -/
def extractNibble (cc : Byte) : Nibble := cc.extractLsb' 4 4

/-- `decode(c)`: syndrome, classification and correction, extraction (R114). -/
def decodeByte (d : Config.DoubleFlip) (c : Byte) : Nibble × ErrorKind :=
  let (kind, cc) := classifyCorrect d c (syndrome c) (parityMismatch c)
  (extractNibble cc, kind)

/-- RSP_DATA after a DECODE, `{0b0000, nibble}` (R118). -/
def nibbleData (n : Nibble) : Byte := 0#4 ++ n

/-- DECODE gives a free nibble: DoubleBitError under `DOUBLE_FLIP = draw` (R104, R118). -/
def drawsNibble (p : Config.Params) (kind : ErrorKind) : Bool :=
  kind == .doubleBitError && p.doubleFlip == .draw

/-- DECODE under the parameters `p` (R118). It never refuses. -/
def decodeOp (p : Config.Params) (arg : Byte) (s : State) : State :=
  let (nibble, kind) := decodeByte p.doubleFlip (codewordOperand arg)
  if drawsNibble p kind then respond (nibbleData (drawnNibble s)) (kindCode kind) (countDraw s)
  else respond (nibbleData nibble) (kindCode kind) s

/-- DEC: DECODE under this machine's parameters. -/
def execDec (c : Byte) (s : State) : Host.Outcome State Fault Refusal :=
  .next (decodeOp params c s)

end Sys2Proof.Machine
end

