-- ==== Sys2Proof/Machine/Encoder.lean ====
section
/-! DEFINITION. The encoder and ENCODE (spec/40_encoder.md R66 to R76). -/

namespace Sys2Proof.Machine

/-- `h0 = d2 ^ d1 ^ d0` (R67). -/
def hamming0 (n : Nibble) : Bool := n.getLsbD 2 ^^ n.getLsbD 1 ^^ n.getLsbD 0

/-- `h1 = d3 ^ d1 ^ d0` (R67). -/
def hamming1 (n : Nibble) : Bool := n.getLsbD 3 ^^ n.getLsbD 1 ^^ n.getLsbD 0

/-- `h2 = d3 ^ d2 ^ d0` (R67). -/
def hamming2 (n : Nibble) : Bool := n.getLsbD 3 ^^ n.getLsbD 2 ^^ n.getLsbD 0

/-- `p = d3 ^ d2 ^ d1 ^ d0 ^ h2 ^ h1 ^ h0` (R68). -/
def overallParity (n : Nibble) : Bool :=
  n.getLsbD 3 ^^ n.getLsbD 2 ^^ n.getLsbD 1 ^^ n.getLsbD 0 ^^
    hamming2 n ^^ hamming1 n ^^ hamming0 n

/-- `encode(n)`: the codeword `{d3, d2, d1, d0, h2, h1, h0, p}` (R66, R70). -/
def encodeNibble (n : Nibble) : Byte :=
  byteOfBits (n.getLsbD 3) (n.getLsbD 2) (n.getLsbD 1) (n.getLsbD 0)
    (hamming2 n) (hamming1 n) (hamming0 n) (overallParity n)

/-- Row `g_i` of the generator matrix (R71). -/
def generatorRow : Fin 4 → Byte
  | 0 => 0x1E#8
  | 1 => 0x27#8
  | 2 => 0x4B#8
  | 3 => 0x8D#8

/-- `n · G` over GF(2): the XOR of the rows the nibble selects (R71). -/
def encodeByMatrix (n : Nibble) : Byte :=
  (List.finRange 4).foldl (fun c (i : Fin 4) => c ^^^ if n.getLsbD i.val then generatorRow i else 0#8) 0#8

/-- Why ENCODE refuses its field ARG, if it does (spec/30_encoding.md R57). -/
def encodeRefusal (p : Config.Params) (arg : Byte) : Option RefusalReason :=
  if highField arg ≠ 0#4 ∧ p.encHighNibble = .refuse then some .encHighNibbleNonzero else none

/-- ENCODE under the parameters `p` (R75, R76): the refusal check comes before any write
(spec/60_exceptions.md R130). -/
def encodeOp (p : Config.Params) (arg : Byte) (s : State) : State :=
  match encodeRefusal p arg with
  | some reason => refuseRequest reason s
  | none => respond (encodeNibble (nibbleOperand arg)) (kindCode .noError) s

/-- ENC: ENCODE under this machine's parameters. -/
def execEnc (arg : Byte) (s : State) : Host.Outcome State Fault Refusal :=
  .next (encodeOp params arg s)

end Sys2Proof.Machine
end

