-- ==== Sys2Proof/Machine/Cycle.lean ====
section
/-! DEFINITION. One clock cycle of the transaction model (spec/10_state.md R23), over any meaning
of the two requests; the meanings under given parameters; and the placing of a request where the
next cycle takes it. -/

namespace Sys2Proof.Machine

/-- One cycle in which the host does `inp`: its reads see the values left by the previous step
(R25), then `rst` wins over a request, and without either the step is idle (R23, R24). -/
def cycleOn (run : Instr → State → Host.Outcome State Fault Refusal) (inp : StepInput)
    (s : State) : Host.Outcome State Fault Refusal :=
  if inp.rst then .next (resetOp (hostSide inp s))
  else if inp.reqValid then
    run (decodeRequest (requestWord inp.reqOp inp.reqArg)) (hostSide inp s)
  else .next (idleOp (hostSide inp s))

/-- One cycle on the host's next input. -/
def cycle (run : Instr → State → Host.Outcome State Fault Refusal) (s : State) :
    Host.Outcome State Fault Refusal :=
  cycleOn run (currentInput s) s

/-- A request under the parameters `p` (spec/00_scope.md R6). -/
def performWith (p : Config.Params) : Instr → State → State
  | .enc arg, s => encodeOp p arg s
  | .dec c, s => decodeOp p c s

/-- One cycle of the machine that has the parameters `p`. -/
def stepWith (p : Config.Params) : State → Host.Outcome State Fault Refusal :=
  cycle fun i s => .next (performWith p i s)

/-- `s` with the host presenting the request word `w` in the next step. A word that does not fit
the 9-bit request port cannot be presented: nothing changes. -/
def presentWord (w : Nat) (s : State) : State :=
  match decodeWord w with
  | .ok _ =>
    let w9 := BitVec.ofNat 9 w
    setNextInput (requestInput (opField w9) (argField w9)) s
  | .error _ => s

end Sys2Proof.Machine
end

