-- ==== Sys2Proof/Machine/Dispatch.lean ====
section
/-! DEFINITION. The dispatch: one arm per operation (spec/30_encoding.md R50). -/

namespace Sys2Proof.Machine

/-- Performs the request `i` in the state `s`. -/
def exec (i : Instr) (s : State) : Host.Outcome State Fault Refusal :=
  match i with
  | .enc arg => Sys2Proof.Machine.execEnc arg s
  | .dec c => Sys2Proof.Machine.execDec c s

end Sys2Proof.Machine
end

