-- ==== Sys2Proof/Machine/Step.lean ====
section
/-! DEFINITION. The step of the machine, one clock cycle (spec/10_state.md R23). -/

namespace Sys2Proof.Machine

/-- One step: a cycle on the host's next input, requests performed by `exec`. -/
def step (s : State) : Host.Outcome State Fault Refusal := cycle exec s

/-- `s` with the request word `w` (its low `nbits` bits) presented in the next step. -/
def State.withFetchWord (s : State) (nbits w : Nat) : State := presentWord (w % 2 ^ nbits) s

end Sys2Proof.Machine
end

