-- ==== Sys2Proof/Machine/Layout.lean ====
section
/-! DEFINITION. The codec over any bit layout (spec/30_encoding.md R47, D7). This hardware has the
canonical layout, for which Machine/Encoder.lean to Machine/Decoder.lean are written; here the same
logical equations are read through a layout, and the table is regenerated from it (R92). -/

namespace Sys2Proof.Machine

open Sys2Proof.Config

/-- The canonical layout, the one this hardware has (spec/30_encoding.md R46). -/
def canonicalLayout : BitLayout :=
  { d3 := 7, d2 := 6, d1 := 5, d0 := 4, h2 := 3, h1 := 2, h0 := 1, p := 0 }

/-- The logical bits a codeword holds under the layout `l`. -/
def readBits (l : BitLayout) (c : Byte) : LogicalWord :=
  { d0 := c.getLsbD l.d0, d1 := c.getLsbD l.d1, d2 := c.getLsbD l.d2, d3 := c.getLsbD l.d3
    h0 := c.getLsbD l.h0, h1 := c.getLsbD l.h1, h2 := c.getLsbD l.h2, p := c.getLsbD l.p }

/-- The byte with `b` at position `j` and 0 elsewhere. -/
def bitAt (b : Bool) (j : Fin 8) : Byte := if b then oneHot j else 0#8

/-- "Assemble the 8 bits into the codeword per BitLayout" (spec/40_encoder.md R70). -/
def placeBits (l : BitLayout) (b : LogicalWord) : Byte :=
  bitAt b.d3 l.d3 ||| bitAt b.d2 l.d2 ||| bitAt b.d1 l.d1 ||| bitAt b.d0 l.d0 |||
    bitAt b.h2 l.h2 ||| bitAt b.h1 l.h1 ||| bitAt b.h0 l.h0 ||| bitAt b.p l.p

/-- The logical bits of the codeword of `n` (spec/40_encoder.md R66 to R68). -/
def logicalEncode (n : Nibble) : LogicalWord :=
  { d0 := n.getLsbD 0, d1 := n.getLsbD 1, d2 := n.getLsbD 2, d3 := n.getLsbD 3
    h0 := hamming0 n, h1 := hamming1 n, h2 := hamming2 n, p := overallParity n }

/-- `{s2, s1, s0}` in its logical form (spec/41_syndrome.md R80, R81). -/
def logicalSyndrome (b : LogicalWord) : Syndrome :=
  BitVec.ofBool (b.h2 ^^ b.d3 ^^ b.d2 ^^ b.d0) ++ BitVec.ofBool (b.h1 ^^ b.d3 ^^ b.d1 ^^ b.d0) ++
    BitVec.ofBool (b.h0 ^^ b.d2 ^^ b.d1 ^^ b.d0)

/-- `pm` in its logical form (spec/41_syndrome.md R82). -/
def logicalMismatch (b : LogicalWord) : Bool :=
  (b.d3 ^^ b.d2 ^^ b.d1 ^^ b.d0 ^^ b.h2 ^^ b.h1 ^^ b.h0) != b.p

/-- `encode(n)` under the layout `l`. -/
def encodeNibbleIn (l : BitLayout) (n : Nibble) : Byte := placeBits l (logicalEncode n)

/-- The syndrome under the layout `l`. -/
def syndromeIn (l : BitLayout) (c : Byte) : Syndrome := logicalSyndrome (readBits l c)

/-- The parity mismatch under the layout `l`. -/
def parityMismatchIn (l : BitLayout) (c : Byte) : Bool := logicalMismatch (readBits l c)

/-- The table regenerated from the layout: `T[s]` is the position `j`, the overall parity bit's
left out, whose single-bit error `1 << j` has syndrome `s`; a syndrome that no position has (only
`s = 0`) gets the sentinel 0 (spec/42_position_table.md R92). -/
def positionOfIn (l : BitLayout) (s : Syndrome) : Fin 8 :=
  ((List.finRange 8).find? fun j => j ≠ l.p && syndromeIn l (oneHot j) == s).getD 0

/-- The flip position under the layout `l` (spec/43_classify_correct.md R101). -/
def flipPositionIn (l : BitLayout) (s : Syndrome) : Fin 8 :=
  if s = 0#3 then l.p else positionOfIn l s

/-- The nibble `{d3, d2, d1, d0}` of a codeword under the layout `l` (spec/44_decode.md R113). -/
def extractNibbleIn (l : BitLayout) (c : Byte) : Nibble :=
  BitVec.ofBool (readBits l c).d3 ++ BitVec.ofBool (readBits l c).d2 ++
    BitVec.ofBool (readBits l c).d1 ++ BitVec.ofBool (readBits l c).d0

/-- `decode(c)` under the layout `l` (spec/44_decode.md R114). -/
def decodeByteIn (l : BitLayout) (d : DoubleFlip) (c : Byte) : Nibble × ErrorKind :=
  let s := syndromeIn l c
  let pm := parityMismatchIn l c
  let mask := if flipEnable d s pm then oneHot (flipPositionIn l s) else 0#8
  (extractNibbleIn l (c ^^^ mask), classify s pm)

end Sys2Proof.Machine
end

