-- ==== Sys2Proof/Safety.lean ====
section
/-! DEFINITION. What claims about a run speak of: a clean state, a codeword, the premise on
errors, and the invariant of the machine. -/

namespace Sys2Proof.Machine

/-- `k` steps of the machine; a run is `k` steps from the launch state
(spec/70_reset_and_hazards.md R151). -/
def runSteps (k : Nat) (s : State) : Host.Outcome State Fault Refusal := Sys2Proof.core.run k s

/-- "A run whose state has REFUSED set, or a non-empty fault list, satisfies no postcondition"
(spec/70_reset_and_hazards.md R151): a clean state has neither. -/
def State.isClean (s : State) : Bool := !s.refused && s.faults.isEmpty

/-- A valid codeword: syndrome 0 and no parity mismatch (spec/00_scope.md R11). -/
abbrev IsCodeword (c : Byte) : Prop := syndrome c = 0#3 ∧ parityMismatch c = false

/-- The error patterns under which the meanings of the error kinds hold: at most two flipped bits
(spec/43_classify_correct.md R108). -/
abbrev IsCoveredError (e : Byte) : Prop := popcount e ≤ 2

/-- What every step keeps. -/
structure State.Inv (s : State) : Prop where
  /-- RSP_DATA and RSP_KIND are written together (spec/10_state.md R21) -/
  writtenTogether : s.rspData.written = s.rspKind.written
  /-- a valid response is a written one (R16, R21) -/
  validIsWritten : s.rspValid = true → s.rspData.written = true
  /-- a written RSP_DATA is a decoded nibble, or a codeword with kind NoError
  (R17, R18; spec/30_encoding.md R55) -/
  nibbleOrCodeword : s.rspData.written = true →
    s.rspData.value.extractLsb' 4 4 = 0#4 ∨
      (IsCodeword s.rspData.value ∧ s.rspKind.value = kindCode .noError)

end Sys2Proof.Machine
end

