-- ==== Sys2Proof/WellFormed.lean ====
section
/-! DEFINITION. Which requests have a meaning under every setting of the parameters. -/

namespace Sys2Proof

/-- A request is well formed unless it is one of the 240 reserved ENCODE words, those with
`w[7:4] != 0` (spec/30_encoding.md R57, R58). -/
def Instr.wellFormed : Instr → Bool
  | .enc arg => arg.extractLsb' 4 4 == 0#4
  | .dec _ => true

end Sys2Proof
end

