-- ==== Sys2Proof/Certificates/Slice0/Obligations.lean ====
section
/-! DEFINITION. The statements about the codec core, each from the numbered rules of spec/. -/

open Sys2Proof Sys2Proof.Machine

/-! ### Requests and their words -/

/-- R49 to R52, R58, R59: the decoder of requests and their encoder are inverse to each other over
every operand and every 9-bit word; a word of any width is accepted exactly when it is the word of
a request, and refused by name exactly when it does not fit 9 bits (the refusal by name is the
model's choice, log entry 12). -/
def Obligations.RequestWordRoundTrip : Prop :=
  (∀ i : Instr, decodeRequest (encodeRequest i) = i) ∧
  (∀ w : RequestWord, encodeRequest (decodeRequest w) = w) ∧
  (∀ (w : Nat) (i : Instr), decodeWord w = .ok i ↔ w = (encodeRequest i).toNat) ∧
  (∀ w : Nat, decodeWord w = .error (.wordTooWide w) ↔ 512 ≤ w)

/-- R50 to R52 and the two rows of opcode_table.json: exactly the 16 words of row ENC decode to
ENCODE of a nibble, and exactly the 256 words of row DEC to DECODE. -/
def Obligations.OpcodeRowsSelectOperations : Prop :=
  (∀ w : RequestWord, w &&& 0x1F0#9 = 0x000#9 ↔
    ∃ n : Nibble, w = 0#5 ++ n ∧ decodeRequest w = .enc (0#4 ++ n)) ∧
  (∀ w : RequestWord, w &&& 0x100#9 = 0x100#9 ↔
    ∃ c : Byte, w = 1#1 ++ c ∧ decodeRequest w = .dec c) ∧
  (List.finRange 512).countP (fun w => BitVec.ofFin (w := 9) w &&& 0x1F0#9 == 0x000#9) = 16 ∧
  (List.finRange 512).countP (fun w => BitVec.ofFin (w := 9) w &&& 0x100#9 == 0x100#9) = 256

/-- R49 to R52, R57, R59: request words written out bit by bit. R128 asks that a word that does not
fit be refused; that a ten-bit word is refused when it is read, under the name `wordTooWide`, is the
model's choice (log entry 12). -/
def Obligations.WrittenOutWordsDecode : Prop :=
  decodeRequest 0b000000001#9 = .enc 0x01#8 ∧
  decodeRequest 0b000001111#9 = .enc 0x0F#8 ∧
  decodeRequest 0b000010101#9 = .enc 0x15#8 ∧
  decodeRequest 0b100011100#9 = .dec 0x1C#8 ∧
  decodeRequest 0b111111111#9 = .dec 0xFF#8 ∧
  decodeWord 0b1000000001 = .error (.wordTooWide 513)

/-! ### The step (10_state.md R23 to R25, 70_reset_and_hazards.md R141) -/

/-- R23, R37: in a step without reset that presents a request, the step is `exec` of the decoded
request, after the host's side of the step; the host's side changes no response register (R37).
The inputs and the samples are the model's own fields (log entries 4 and 6), and that the faults of
the host's reads of R21 are recorded before the request is performed rests on log entries 3, 6 and
13; R25 says that a read sees what the previous step left. -/
def Obligations.StepRunsDecodedRequest : Prop :=
  (∀ s : State, (currentInput s).rst = false → (currentInput s).reqValid = true →
    step s = exec (decodeRequest (requestWord (currentInput s).reqOp (currentInput s).reqArg))
      (hostSide (currentInput s) s)) ∧
  ∀ (inp : StepInput) (s : State),
    (hostSide inp s).rspValid = s.rspValid ∧ (hostSide inp s).rspData = s.rspData ∧
    (hostSide inp s).rspKind = s.rspKind ∧ (hostSide inp s).refused = s.refused ∧
    (hostSide inp s).draws = s.draws ∧ (hostSide inp s).inputs = s.inputs.tail ∧
    (hostSide inp s).samples = s.samples ++ [sampleOf inp s] ∧
    (hostSide inp s).faults = s.faults ++ faultsOf inp s

/-- R23, R49: presenting the word of any request makes the very next step perform it, whatever the
state; the host reads nothing in that step (log entries 4 and 6). -/
def Obligations.PresentedWordRunsNext : Prop :=
  ∀ (s : State) (nbits : Nat) (i : Instr), 9 ≤ nbits →
    step (s.withFetchWord nbits (encodeRequest i).toNat) =
      exec i { s with
        inputs := s.inputs.tail
        samples := s.samples ++ [{ valid := none, data := none, kind := none }] }

/-- R141: a step with `rst` = 1 clears RSP_VALID and leaves RSP_DATA and RSP_KIND unwritten;
REFUSED and the fault list stay, and any request presented in the same step is dropped. The other
clauses rest on the model's own choices: that a read of an unwritten register (R21, R25) is recorded
in a reset step as in any other (log entries 6 and 13), the list of inputs (log entry 4), and the
draw counter (log entry 7). -/
def Obligations.ResetStepDropsRequest : Prop :=
  ∀ s : State, (currentInput s).rst = true →
    (∃ t, step s = .next t ∧ t.rspValid = false ∧
      portValue t.rspData = none ∧ portValue t.rspKind = none ∧
      t.refused = s.refused ∧ t.faults = s.faults ++ faultsOf (currentInput s) s ∧
      ((currentInput s).readData = false → (currentInput s).readKind = false →
        t.faults = s.faults) ∧
      t.draws = s.draws ∧ t.inputs = s.inputs.tail) ∧
    ∀ (valid op : Bool) (arg : Byte),
      step (setNextInput
        { currentInput s with reqValid := valid, reqOp := op, reqArg := arg } s) = step s

/-- R142: any number of reset steps leaves the same registers as the first; the fault list too, if
the host reads nothing in those steps. -/
def Obligations.HeldResetIsOneReset : Prop :=
  ∀ (k : Nat) (s : State), k + 1 ≤ s.inputs.length →
    (∀ inp ∈ s.inputs.take (k + 1), inp.rst = true) →
    ∃ t u, step s = .next t ∧ runSteps (k + 1) s = .next u ∧
      u.rspValid = t.rspValid ∧ portValue u.rspData = portValue t.rspData ∧
      portValue u.rspKind = portValue t.rspKind ∧ u.refused = t.refused ∧
      ((∀ inp ∈ s.inputs.take (k + 1), inp.readData = false ∧ inp.readKind = false) →
        u.faults = t.faults)

/-- R24: an idle step clears RSP_VALID; RSP_DATA, RSP_KIND and their written status are unchanged.
The other clauses rest on the model's own choices: the faults of the host's reads (R21, R25) in that
step (log entries 6 and 13), the list of inputs, whose end counts as idle (log entries 4 and 5), and
the draw counter (log entry 7). -/
def Obligations.IdleStepHoldsResponse : Prop :=
  ∀ s : State, (currentInput s).rst = false → (currentInput s).reqValid = false →
    ∃ t, step s = .next t ∧ t.rspValid = false ∧ t.rspData = s.rspData ∧ t.rspKind = s.rspKind ∧
      t.refused = s.refused ∧ t.draws = s.draws ∧
      t.faults = s.faults ++ faultsOf (currentInput s) s ∧ t.inputs = s.inputs.tail

/-- R126, R147: nothing stops the machine: every step, and every request, answers a next state, in
every state and under every parameter setting. That a refusal and a recorded fault are next states
too is the model's reading of the rules (log entries 2 and 3). -/
def Obligations.NoStepStops : Prop :=
  (∀ s : State, ∃ t, step s = .next t) ∧
  (∀ (p : Config.Params) (s : State), ∃ t, stepWith p s = .next t) ∧
  ∀ (i : Instr) (s : State), ∃ t, exec i s = .next t

/-- R6, R23: this machine is the parametric transaction model at the default parameters
`ENC_HIGH_NIBBLE = refuse` and `DOUBLE_FLIP = flip`. -/
def Obligations.StepIsDefaultParametricStep : Prop :=
  (∀ s : State, step s = stepWith { encHighNibble := .refuse, doubleFlip := .flip } s) ∧
  ∀ (i : Instr) (s : State),
    exec i s = .next (performWith { encHighNibble := .refuse, doubleFlip := .flip } i s)

/-! ### ENCODE (40_encoder.md) -/

/-- R66 to R68, R70, R75: ENCODE of a nibble writes the codeword whose eight bits the rules give to
RSP_DATA, NoError to RSP_KIND and 1 to RSP_VALID, and changes nothing else, under every setting of
the parameters. -/
def Obligations.EncodeRespondsWithCodeword : Prop :=
  ∀ (s : State) (n : Nibble), ∃ c : Byte,
    exec (.enc (0#4 ++ n)) s = .next { s with
      rspValid := true
      rspData := { value := c, written := true }
      rspKind := { value := 0b00#2, written := true } } ∧
    (∀ p : Config.Params, performWith p (.enc (0#4 ++ n)) s = { s with
      rspValid := true
      rspData := { value := c, written := true }
      rspKind := { value := 0b00#2, written := true } }) ∧
    c.extractLsb' 4 4 = n ∧
    c.getLsbD 3 = (n.getLsbD 3 ^^ n.getLsbD 2 ^^ n.getLsbD 0) ∧
    c.getLsbD 2 = (n.getLsbD 3 ^^ n.getLsbD 1 ^^ n.getLsbD 0) ∧
    c.getLsbD 1 = (n.getLsbD 2 ^^ n.getLsbD 1 ^^ n.getLsbD 0) ∧
    c.getLsbD 0 = (n.getLsbD 3 ^^ n.getLsbD 2 ^^ n.getLsbD 1 ^^ n.getLsbD 0 ^^
      c.getLsbD 3 ^^ c.getLsbD 2 ^^ c.getLsbD 1)

/-- R57: the only encodings without meaning are the 240 ENCODE words with `w[7:4] != 0`. Under
`refuse`, this machine's setting, such a request sets REFUSED and writes no response register;
under `mask` it is ENCODE of `w[3:0]`. That a refused request is a next state is the model's
reading of the rules (log entry 2). -/
def Obligations.ReservedEncodeWords : Prop :=
  (∀ w : RequestWord, (decodeRequest w).wellFormed = false ↔
    w.getLsbD 8 = false ∧ w.extractLsb' 4 4 ≠ 0#4) ∧
  (List.finRange 512).countP
    (fun w => !(decodeRequest (BitVec.ofFin (w := 9) w)).wellFormed) = 240 ∧
  ∀ (s : State) (high n : Nibble), high ≠ 0#4 →
    exec (.enc (high ++ n)) s = .next { s with refused := true } ∧
    ∀ d : Config.DoubleFlip,
      performWith { encHighNibble := .refuse, doubleFlip := d } (.enc (high ++ n)) s =
        { s with refused := true } ∧
      performWith { encHighNibble := .mask, doubleFlip := d } (.enc (high ++ n)) s =
        performWith { encHighNibble := .mask, doubleFlip := d } (.enc (0#4 ++ n)) s

/-- R71: the rows of G are the codewords of the nibbles `1 << i`, encoding is the XOR of the rows
the nibble selects, and each parity column selects the three data bits the rule lists. -/
def Obligations.EncodingIsGeneratorMatrixProduct : Prop :=
  (∀ i : Fin 4, encodeNibble (1#4 <<< i.val) = generatorRow i) ∧
  (generatorRow 0 = 0x1E#8 ∧ generatorRow 1 = 0x27#8 ∧ generatorRow 2 = 0x4B#8 ∧
    generatorRow 3 = 0x8D#8) ∧
  (∀ n : Nibble, encodeNibble n =
    (if n.getLsbD 0 then 0x1E#8 else 0#8) ^^^ (if n.getLsbD 1 then 0x27#8 else 0#8) ^^^
      (if n.getLsbD 2 then 0x4B#8 else 0#8) ^^^ (if n.getLsbD 3 then 0x8D#8 else 0#8)) ∧
  (∀ n : Nibble, encodeByMatrix n = encodeNibble n) ∧
  ∀ i : Fin 4,
    ((generatorRow i).getLsbD 1 = true ↔ i ∈ [0, 1, 2]) ∧
    ((generatorRow i).getLsbD 2 = true ↔ i ∈ [0, 1, 3]) ∧
    ((generatorRow i).getLsbD 3 = true ↔ i ∈ [0, 2, 3]) ∧
    ((generatorRow i).getLsbD 0 = true ↔ i ∈ [1, 2, 3])

/-- R72 (with conflict C1: encode(8) is 0x8D): the complete encode function and the weight of each
codeword. -/
def Obligations.CodewordTable : Prop :=
  (List.finRange 16).map (fun n => encodeNibble (BitVec.ofFin n)) =
    [0x00#8, 0x1E#8, 0x27#8, 0x39#8, 0x4B#8, 0x55#8, 0x6C#8, 0x72#8,
     0x8D#8, 0x93#8, 0xAA#8, 0xB4#8, 0xC6#8, 0xD8#8, 0xE1#8, 0xFF#8] ∧
  (List.finRange 16).map (fun n => popcount (encodeNibble (BitVec.ofFin n))) =
    [0, 4, 4, 4, 4, 4, 4, 4, 4, 4, 4, 4, 4, 4, 4, 8]

/-- R73: the encoder is linear over XOR, so it encodes 0 as the zero word. -/
def Obligations.EncoderIsLinear : Prop :=
  (∀ a b : Nibble, encodeNibble a ^^^ encodeNibble b = encodeNibble (a ^^^ b)) ∧
  encodeNibble 0#4 = 0x00#8

/-- R74: every output of the encoder is a valid codeword, of weight 0, 4 or 8, and two distinct
ones differ in at least 4 positions. -/
def Obligations.CodewordsAreValidAndFarApart : Prop :=
  (∀ n : Nibble, syndrome (encodeNibble n) = 0#3 ∧ parityMismatch (encodeNibble n) = false) ∧
  (∀ n : Nibble, popcount (encodeNibble n) = 0 ∨ popcount (encodeNibble n) = 4 ∨
    popcount (encodeNibble n) = 8) ∧
  ∀ a b : Nibble, a ≠ b → 4 ≤ popcount (encodeNibble a ^^^ encodeNibble b)

/-! ### Syndrome and position table (41_syndrome.md, 42_position_table.md) -/

/-- R80, R82, R83: the syndrome bits and the parity mismatch, as XORs of codeword bits and as the
parity of the codeword under the rows of the parity-check matrix. -/
def Obligations.SyndromeIsParityCheckProduct : Prop :=
  ∀ c : Byte,
    (syndrome c).getLsbD 0 = (c.getLsbD 1 ^^ c.getLsbD 6 ^^ c.getLsbD 5 ^^ c.getLsbD 4) ∧
    (syndrome c).getLsbD 1 = (c.getLsbD 2 ^^ c.getLsbD 7 ^^ c.getLsbD 5 ^^ c.getLsbD 4) ∧
    (syndrome c).getLsbD 2 = (c.getLsbD 3 ^^ c.getLsbD 7 ^^ c.getLsbD 6 ^^ c.getLsbD 4) ∧
    (syndrome c).getLsbD 0 = parity (c &&& 0x72#8) ∧
    (syndrome c).getLsbD 1 = parity (c &&& 0xB4#8) ∧
    (syndrome c).getLsbD 2 = parity (c &&& 0xD8#8) ∧
    syndromeByMatrix c = syndrome c ∧
    parityMismatch c = ((c.getLsbD 7 ^^ c.getLsbD 6 ^^ c.getLsbD 5 ^^ c.getLsbD 4 ^^
      c.getLsbD 3 ^^ c.getLsbD 2 ^^ c.getLsbD 1) != c.getLsbD 0) ∧
    parityMismatch c = parity (c &&& 0xFF#8) ∧ parityMismatch c = parity c

/-- R84: the syndrome and the parity mismatch of each single flipped bit; the seven syndromes of
positions 1 to 7 are distinct, nonzero and all seven there are. -/
def Obligations.ParityCheckColumns : Prop :=
  (List.range 8).map (fun j => syndrome (oneHot j)) =
    [0b000#3, 0b001#3, 0b010#3, 0b100#3, 0b111#3, 0b011#3, 0b101#3, 0b110#3] ∧
  (∀ j : Fin 8, parityMismatch (oneHot j) = true) ∧
  (∀ i j : Fin 8, i ≠ 0 → j ≠ 0 → syndrome (oneHot i) = syndrome (oneHot j) → i = j) ∧
  ∀ s : Syndrome, s ≠ 0#3 ↔ ∃ j : Fin 8, j ≠ 0 ∧ syndrome (oneHot j) = s

/-- R85: syndrome and parity mismatch are linear over XOR, so for a corrupted codeword they depend
on the error pattern alone; and so does the outcome: the kind, and by how much the nibble is off. -/
def Obligations.SyndromeIsLinear : Prop :=
  (∀ a b : Byte, syndrome (a ^^^ b) = syndrome a ^^^ syndrome b ∧
    parityMismatch (a ^^^ b) = (parityMismatch a ^^ parityMismatch b)) ∧
  (∀ (n : Nibble) (e : Byte), syndrome (encodeNibble n ^^^ e) = syndrome e ∧
    parityMismatch (encodeNibble n ^^^ e) = parity e) ∧
  ∀ (d : Config.DoubleFlip) (n : Nibble) (e : Byte),
    decodeByte d (encodeNibble n ^^^ e) = (n ^^^ (decodeByte d e).1, (decodeByte d e).2)

/-- R86: syndrome 0 and no mismatch hold exactly for the 16 codewords, and each of the 16 pairs
(S, pm) is produced by exactly 16 of the 256 bytes. -/
def Obligations.ExactlyTheCodewordsCheck : Prop :=
  (∀ c : Byte, (syndrome c = 0#3 ∧ parityMismatch c = false) ↔ ∃ n : Nibble, c = encodeNibble n) ∧
  ∀ (s : Syndrome) (pm : Bool), (List.finRange 256).countP
    (fun c => syndrome (BitVec.ofFin c) == s && parityMismatch (BitVec.ofFin c) == pm) = 16

/-- R91, R93: the entries of T, and that T restricted to 1..7 is a bijection onto positions 1..7,
inverse to the columns of the parity-check matrix. -/
def Obligations.PositionTableIsBijection : Prop :=
  (List.finRange 8).map (fun s => positionOf (BitVec.ofFin s)) =
    [0#3, 1#3, 2#3, 5#3, 3#3, 6#3, 7#3, 4#3] ∧
  (∀ j : Position, j ≠ 0#3 → positionOf (syndrome (oneHot j.toNat)) = j) ∧
  (∀ s : Syndrome, s ≠ 0#3 → syndrome (oneHot (positionOf s).toNat) = s) ∧
  (∀ s : Syndrome, s ≠ 0#3 → positionOf s ≠ 0#3) ∧
  (∀ s t : Syndrome, s ≠ 0#3 → t ≠ 0#3 → positionOf s = positionOf t → s = t) ∧
  ∀ j : Position, j ≠ 0#3 → ∃ s : Syndrome, s ≠ 0#3 ∧ positionOf s = j

/-- R95: the one-hot decode of the syndrome equals the table followed by the mask decoder, on every
input. -/
def Obligations.OneHotDecodeEqualsTable : Prop :=
  ∀ s : Syndrome, maskOfSyndrome s = oneHot (flipPosition s).toNat ∧
    (s ≠ 0#3 → maskOfSyndrome s = oneHot (positionOf s).toNat)

/-! ### Classification and correction (43_classify_correct.md) -/

/-- R98, R99: the four rows of the classification table, with code and corrected codeword, and that
exactly one of them applies. -/
def Obligations.ClassificationTable : Prop :=
  (∀ (d : Config.DoubleFlip) (c : Byte), classifyCorrect d c 0#3 false = (.noError, c)) ∧
  (∀ (d : Config.DoubleFlip) (c : Byte),
    classifyCorrect d c 0#3 true = (.parityBitError, c ^^^ 0x01#8)) ∧
  (∀ (d : Config.DoubleFlip) (c : Byte) (s : Syndrome), s ≠ 0#3 →
    classifyCorrect d c s true = (.singleBitError, c ^^^ oneHot (positionOf s).toNat)) ∧
  (∀ (c : Byte) (s : Syndrome), s ≠ 0#3 →
    classifyCorrect .flip c s false = (.doubleBitError, c ^^^ oneHot (positionOf s).toNat) ∧
    classifyCorrect .noflip c s false = (.doubleBitError, c)) ∧
  (kindCode .noError = 0b00#2 ∧ kindCode .parityBitError = 0b10#2 ∧
    kindCode .singleBitError = 0b01#2 ∧ kindCode .doubleBitError = 0b11#2) ∧
  ∀ (s : Syndrome) (pm : Bool), [s == 0#3 && !pm, s == 0#3 && pm, s != 0#3 && pm,
    s != 0#3 && !pm].countP id = 1

/-- R102, R103: the flip mask is zero or has exactly one bit set, and the corrected codeword is the
received one with that mask XORed in; under NoError it is unchanged, under ParityBitError only bit
0 differs, so the data is untouched. -/
def Obligations.FlipMaskTouchesAtMostOneBit : Prop :=
  ∀ (d : Config.DoubleFlip) (c : Byte) (s : Syndrome) (pm : Bool),
    (flipMask d s pm = if flipEnable d s pm then 1#8 <<< (flipPosition s).toNat else 0x00#8) ∧
    (flipMask d s pm = 0#8 ∨ popcount (flipMask d s pm) = 1) ∧
    (classifyCorrect d c s pm).2 = c ^^^ flipMask d s pm ∧
    ((classifyCorrect d c s pm).1 = .noError → (classifyCorrect d c s pm).2 = c) ∧
    ((classifyCorrect d c s pm).1 = .parityBitError →
      (classifyCorrect d c s pm).2 = c ^^^ 0x01#8 ∧
      (classifyCorrect d c s pm).2.extractLsb' 4 4 = c.extractLsb' 4 4)

/-- R105: what a codeword with at most two flipped bits decodes to: syndrome, mismatch, kind and
corrected codeword, for every setting of `DOUBLE_FLIP`. -/
def Obligations.GuaranteesUpToTwoFlips : Prop :=
  ∀ (d : Config.DoubleFlip) (n : Nibble) (e : Byte),
    let c := encodeNibble n ^^^ e
    let r := classifyCorrect d c (syndrome c) (parityMismatch c)
    syndrome c = syndrome e ∧ parityMismatch c = parity e ∧
    (popcount e = 0 → syndrome c = 0#3 ∧ parityMismatch c = false ∧
      r = (.noError, encodeNibble n)) ∧
    (e = 0x01#8 → syndrome c = 0#3 ∧ parityMismatch c = true ∧
      r = (.parityBitError, encodeNibble n)) ∧
    (∀ j : Position, j ≠ 0#3 → e = 1#8 <<< j.toNat →
      syndrome c = syndrome (1#8 <<< j.toNat) ∧ syndrome c ≠ 0#3 ∧ parityMismatch c = true ∧
      positionOf (syndrome c) = j ∧ r = (.singleBitError, encodeNibble n)) ∧
    (popcount e = 2 → parityMismatch c = false ∧ syndrome c ≠ 0#3 ∧ r.1 = .doubleBitError)

/-- R107: three flipped bits are always taken for a single or a parity error and give a wrong
nibble; four are taken for a double error, or for no error exactly when the error is a codeword of
weight 4, and then the nibble is off by the error's data bits; the counts of the rule. -/
def Obligations.ThreeAndFourFlipsMisclassify : Prop :=
  (∀ (d : Config.DoubleFlip) (n : Nibble) (e : Byte), popcount e = 3 →
    parityMismatch (encodeNibble n ^^^ e) = true ∧
    ((decodeByte d (encodeNibble n ^^^ e)).2 = .singleBitError ∨
      (decodeByte d (encodeNibble n ^^^ e)).2 = .parityBitError) ∧
    (decodeByte d (encodeNibble n ^^^ e)).1 ≠ n) ∧
  (∀ (d : Config.DoubleFlip) (n : Nibble) (e : Byte), popcount e = 4 →
    parityMismatch (encodeNibble n ^^^ e) = false ∧
    ((decodeByte d (encodeNibble n ^^^ e)).2 = .doubleBitError ∨
      (decodeByte d (encodeNibble n ^^^ e)).2 = .noError) ∧
    ((decodeByte d (encodeNibble n ^^^ e)).2 = .noError ↔ ∃ m : Nibble, e = encodeNibble m) ∧
    ((decodeByte d (encodeNibble n ^^^ e)).2 = .noError →
      (decodeByte d (encodeNibble n ^^^ e)).1 = n ^^^ e.extractLsb' 4 4)) ∧
  (∀ (d : Config.DoubleFlip) (n : Nibble),
    let count := fun (weight : Nat) (kind : ErrorKind) => (List.finRange 256).countP fun e =>
      popcount (BitVec.ofFin e) == weight &&
        (decodeByte d (encodeNibble n ^^^ BitVec.ofFin e)).2 == kind
    count 3 .singleBitError = 49 ∧ count 3 .parityBitError = 7 ∧
    count 4 .doubleBitError = 56 ∧ count 4 .noError = 14) ∧
  ∀ d : Config.DoubleFlip, encodeNibble 1#4 ^^^ 0x26#8 = 0x38#8 ∧ syndrome 0x38#8 = 0#3 ∧
    parityMismatch 0x38#8 = true ∧ decodeByte d 0x38#8 = (3#4, .parityBitError)

/-! ### DECODE (44_decode.md) -/

/-- R88, R91, R109, R114, R118: DECODE of any byte writes `{0000, nibble}` to RSP_DATA, the kind's
code to RSP_KIND and 1 to RSP_VALID, and changes nothing else; syndrome, kind, mask and nibble are
written out from the rules. It says so for this machine, and under every parameter setting but
where `draw` leaves the nibble free. -/
def Obligations.DecodeRespondsWithNibbleAndKind : Prop :=
  ∀ (s : State) (c : Byte) (p : Config.Params),
    let index := (parity (c &&& 0x72#8)).toNat + 2 * (parity (c &&& 0xB4#8)).toNat +
      4 * (parity (c &&& 0xD8#8)).toNat
    let pm := parity c
    let kind : KindCode :=
      if index = 0 then (if pm then 0b10#2 else 0b00#2) else (if pm then 0b01#2 else 0b11#2)
    let mask := fun (d : Config.DoubleFlip) =>
      if index = 0 then (if pm then 0x01#8 else 0x00#8)
      else if pm ∨ d = .flip then 1#8 <<< [0, 1, 2, 5, 3, 6, 7, 4].getD index 0 else 0x00#8
    let after := fun (d : Config.DoubleFlip) => { s with
      rspValid := true
      rspData := { value := 0#4 ++ (c ^^^ mask d).extractLsb' 4 4, written := true }
      rspKind := { value := kind, written := true } }
    exec (.dec c) s = .next (after .flip) ∧
    (kind ≠ 0b11#2 ∨ p.doubleFlip ≠ .draw → performWith p (.dec c) s = after p.doubleFlip)

/-- R104, R118: under `DOUBLE_FLIP = draw` a DoubleBitError writes a free nibble to RSP_DATA[3:0];
everything else is as under the other settings. It holds for every value of the free nibble, which
is the model's opaque constant at the model's own draw counter (log entry 7). -/
def Obligations.DoubleErrorUnderDrawIsFree : Prop :=
  ∀ (s : State) (c : Byte) (h : Config.EncHighNibble),
    syndrome c ≠ 0#3 → parityMismatch c = false →
    performWith { encHighNibble := h, doubleFlip := .draw } (.dec c) s = { s with
      rspValid := true
      rspData := { value := 0#4 ++ Config.drawNibble s.draws, written := true }
      rspKind := { value := 0b11#2, written := true }
      draws := s.draws + 1 }

/-- R115: the nibble in terms of the received data bits, for each kind and each setting of
`DOUBLE_FLIP`; under `draw` nothing is said of the nibble. -/
def Obligations.NibbleFromReceivedDataBits : Prop :=
  ∀ (s : State) (c : Byte) (h : Config.EncHighNibble) (d : Config.DoubleFlip),
    let data := (performWith { encHighNibble := h, doubleFlip := d } (.dec c) s).rspData.value
    let kind := classify (syndrome c) (parityMismatch c)
    let pos := (positionOf (syndrome c)).toNat
    let corrected := if 4 ≤ pos then c.extractLsb' 4 4 ^^^ 1#4 <<< (pos - 4)
      else c.extractLsb' 4 4
    (kind = .noError ∨ kind = .parityBitError → data = 0#4 ++ c.extractLsb' 4 4) ∧
    (kind = .singleBitError → data = 0#4 ++ corrected) ∧
    (kind = .doubleBitError → d = .flip → data = 0#4 ++ corrected) ∧
    (kind = .doubleBitError → d = .noflip → data = 0#4 ++ c.extractLsb' 4 4) ∧
    (kind = .doubleBitError → d = .draw → ∃ free : Nibble, data = 0#4 ++ free) ∧
    (kind = .singleBitError ∨ kind = .doubleBitError → 1 ≤ pos)

/-- R116: how often each kind occurs over the 256 bytes, and that each DoubleBitError byte is at
distance 2 from exactly 4 codewords. -/
def Obligations.KindCountsOverAllBytes : Prop :=
  (∀ d : Config.DoubleFlip,
    let count := fun kind => (List.finRange 256).countP fun c =>
      (decodeByte d (BitVec.ofFin c)).2 == kind
    count .noError = 16 ∧ count .parityBitError = 16 ∧
    count .singleBitError = 112 ∧ count .doubleBitError = 112) ∧
  (∀ (d : Config.DoubleFlip) (c : Byte),
    (decodeByte d c).2 = .noError ↔ ∃ n : Nibble, c = encodeNibble n) ∧
  ∀ (d : Config.DoubleFlip) (c : Byte), (decodeByte d c).2 = .doubleBitError →
    (List.finRange 16).countP
      (fun n => popcount (c ^^^ encodeNibble (BitVec.ofFin n)) == 2) = 4

/-- R117: the source's round trip, single-bit correction and double-bit detection. -/
def Obligations.SourceCodecProperties : Prop :=
  ∀ (d : Config.DoubleFlip) (n : Nibble),
    decodeByte d (encodeNibble n) = (n, .noError) ∧
    (∀ j : Fin 8, decodeByte d (encodeNibble n ^^^ 1#8 <<< j.val) =
      (n, if j = 0 then .parityBitError else .singleBitError)) ∧
    ∀ i j : Fin 8, i ≠ j →
      (decodeByte d (encodeNibble n ^^^ 1#8 <<< i.val ^^^ 1#8 <<< j.val)).2 = .doubleBitError

/-! ### Both requests: frame, parameters, order -/

/-- R26, R40, R75, R118: what a request leaves unchanged. The host's side of the state (faults,
inputs, samples) always; REFUSED for a well-formed request; every response register for a reserved
ENCODE word, under `refuse`; the draw count unless a DoubleBitError draws. -/
def Obligations.RequestFrame : Prop :=
  ∀ (p : Config.Params) (i : Instr) (s : State),
    let t := performWith p i s
    t.faults = s.faults ∧ t.inputs = s.inputs ∧ t.samples = s.samples ∧
    (i.wellFormed = true ∨ p.encHighNibble = .mask → t.refused = s.refused) ∧
    (i.wellFormed = false → p.encHighNibble = .refuse →
      t.rspValid = s.rspValid ∧ t.rspData = s.rspData ∧ t.rspKind = s.rspKind ∧
      t.draws = s.draws) ∧
    (p.doubleFlip ≠ .draw ∨ (∀ c, i = .dec c → syndrome c = 0#3 ∨ parityMismatch c = true) →
      t.draws = s.draws) ∧
    exec i s = .next (performWith { encHighNibble := .refuse, doubleFlip := .flip } i s)

/-- R6, R57, R104: the two parameters matter only on reserved ENCODE words and on the nibble of a
DoubleBitError. Any other well-formed request does the same under every setting; every well-formed
request leaves the same state under every setting but for RSP_DATA[3:0] and the model's own draw
counter (log entry 7); ENC_HIGH_NIBBLE alone changes nothing for a well-formed request, and
DOUBLE_FLIP alone nothing for any ENCODE word, the reserved ones included. -/
def Obligations.ParametersMatterOnlyWhereOpen : Prop :=
  (∀ (p q : Config.Params) (i : Instr) (s : State), i.wellFormed = true →
    (∀ c, i = .dec c → classify (syndrome c) (parityMismatch c) ≠ .doubleBitError) →
    performWith p i s = performWith q i s) ∧
  (∀ (p q : Config.Params) (i : Instr) (s : State), i.wellFormed = true →
    (performWith p i s).rspKind = (performWith q i s).rspKind ∧
    (performWith p i s).rspValid = true ∧ (performWith q i s).rspValid = true ∧
    (performWith p i s).rspData.written = true ∧ (performWith q i s).rspData.written = true ∧
    (performWith p i s).rspData.value.extractLsb' 4 4 =
      (performWith q i s).rspData.value.extractLsb' 4 4 ∧
    (performWith p i s).refused = (performWith q i s).refused ∧
    (performWith p i s).faults = (performWith q i s).faults ∧
    (performWith p i s).inputs = (performWith q i s).inputs ∧
    (performWith p i s).samples = (performWith q i s).samples) ∧
  (∀ (h₁ h₂ : Config.EncHighNibble) (d : Config.DoubleFlip) (i : Instr) (s : State),
    i.wellFormed = true →
    performWith { encHighNibble := h₁, doubleFlip := d } i s =
      performWith { encHighNibble := h₂, doubleFlip := d } i s) ∧
  ∀ (h : Config.EncHighNibble) (d₁ d₂ : Config.DoubleFlip) (arg : Byte) (s : State),
    performWith { encHighNibble := h, doubleFlip := d₁ } (.enc arg) s =
      performWith { encHighNibble := h, doubleFlip := d₂ } (.enc arg) s

/-- R13, R40: the response to a request depends only on its own operands: two states, however they
differ, hold the same response after the same well-formed request. -/
def Obligations.ResponseIgnoresHistory : Prop :=
  ∀ s₁ s₂ t₁ t₂ : State, (currentInput s₁).rst = false → (currentInput s₂).rst = false →
    (currentInput s₁).reqValid = true → (currentInput s₂).reqValid = true →
    (currentInput s₁).reqOp = (currentInput s₂).reqOp →
    (currentInput s₁).reqArg = (currentInput s₂).reqArg →
    (decodeRequest
      (requestWord (currentInput s₁).reqOp (currentInput s₁).reqArg)).wellFormed = true →
    step s₁ = .next t₁ → step s₂ = .next t₂ →
    t₁.rspValid = t₂.rspValid ∧ t₁.rspData = t₂.rspData ∧ t₁.rspKind = t₂.rspKind

/-! ### Registers over steps (10_state.md R16, R21, R22, R25) -/

/-- R16: what each kind of step does to RSP_VALID; where REFUSED is clear after a step, RSP_VALID
is 1 exactly if the step performed a request. -/
def Obligations.ValidExactlyAfterRequest : Prop :=
  ∀ s t : State, step s = .next t →
    ((currentInput s).rst = true → t.rspValid = false) ∧
    ((currentInput s).rst = false → (currentInput s).reqValid = false → t.rspValid = false) ∧
    ((currentInput s).rst = false → (currentInput s).reqValid = true →
      if (decodeRequest
          (requestWord (currentInput s).reqOp (currentInput s).reqArg)).wellFormed = true
      then t.rspValid = true else t.rspValid = s.rspValid) ∧
    (t.refused = false →
      t.rspValid = (!(currentInput s).rst && (currentInput s).reqValid))

/-- R22: REFUSED is false at launch, is set exactly by a request without meaning, is never cleared,
not even by `rst`, and the refusing step writes no response register. -/
def Obligations.RefusedIsSticky : Prop :=
  State.reset.refused = false ∧
  ∀ s t : State, step s = .next t →
    (s.refused = true → t.refused = true) ∧
    (s.refused = false →
      (t.refused = true ↔ (currentInput s).rst = false ∧ (currentInput s).reqValid = true ∧
        (currentInput s).reqOp = false ∧ (currentInput s).reqArg.extractLsb' 4 4 ≠ 0#4)) ∧
    ((currentInput s).rst = false → (currentInput s).reqValid = true →
      (currentInput s).reqOp = false → (currentInput s).reqArg.extractLsb' 4 4 ≠ 0#4 →
      t.refused = true ∧ t.rspValid = s.rspValid ∧ t.rspData = s.rspData ∧
      t.rspKind = s.rspKind)

/-- R16, R21, R25: the written status is clear at launch and after `rst`, and set by every request
that is not refused; in every step, of any kind, a host read of an unwritten register gives no value
and records ReadUnwrittenResponse, a read of a written one gives its value, a read of RSP_VALID
always gives its value, and the fault list is never shortened. What the host read in the step is the
last entry of `samples`, the model's own field (log entry 6); that the machine records the fault and
goes on is the model's reading (log entry 3). -/
def Obligations.UnwrittenReadRecordsFault : Prop :=
  portValue State.reset.rspData = none ∧ portValue State.reset.rspKind = none ∧
  ∀ s t : State, step s = .next t →
    ((currentInput s).rst = true → t.rspData.written = false ∧ t.rspKind.written = false) ∧
    ((currentInput s).rst = false → (currentInput s).reqValid = true →
      (decodeRequest
        (requestWord (currentInput s).reqOp (currentInput s).reqArg)).wellFormed = true →
      t.rspData.written = true ∧ t.rspKind.written = true) ∧
    ∃ (sample : Sample) (new : List Fault),
      t.samples = s.samples ++ [sample] ∧ t.faults = s.faults ++ new ∧
      sample.valid = (if (currentInput s).readValid then some s.rspValid else none) ∧
      sample.data =
        (if (currentInput s).readData && s.rspData.written then some s.rspData.value else none) ∧
      sample.kind =
        (if (currentInput s).readKind && s.rspKind.written then some s.rspKind.value else none) ∧
      (∀ f ∈ new, f = .readUnwrittenResponse) ∧
      (new ≠ [] ↔ ((currentInput s).readData = true ∧ s.rspData.written = false) ∨
        ((currentInput s).readKind = true ∧ s.rspKind.written = false))

/-- R25, R146: a request presented in one step is answered on the response ports in the next,
whatever the host presents then; the host reading all three ports there sees the response. The
samples are the model's own field (log entry 6); a DoubleBitError's nibble is that of this machine's
`DOUBLE_FLIP = flip` (log entry 8). -/
def Obligations.ResponseSeenInNextStep : Prop :=
  ∀ s t u : State, (currentInput s).rst = false → (currentInput s).reqValid = true →
    (decodeRequest
      (requestWord (currentInput s).reqOp (currentInput s).reqArg)).wellFormed = true →
    step s = .next t → (currentInput t).readValid = true → (currentInput t).readData = true →
    (currentInput t).readKind = true → step t = .next u →
    u.samples = t.samples ++ [{
      valid := some true
      data := some (match (currentInput s).reqOp with
        | false => encodeNibble ((currentInput s).reqArg.extractLsb' 0 4)
        | true => 0#4 ++ (decodeByte .flip (currentInput s).reqArg).1)
      kind := some (match (currentInput s).reqOp with
        | false => 0b00#2
        | true => kindCode (decodeByte .flip (currentInput s).reqArg).2) }] ∧
    u.faults = t.faults

/-- R24, R148: RSP_DATA and RSP_KIND hold over any number of idle steps, and RSP_VALID is 0 after
the first. -/
def Obligations.ResponseHeldOverIdleSteps : Prop :=
  ∀ (k : Nat) (s : State),
    (∀ inp ∈ s.inputs.take k, inp.rst = false ∧ inp.reqValid = false) →
    ∃ t, runSteps k s = .next t ∧ t.rspData = s.rspData ∧ t.rspKind = s.rspKind ∧
      t.refused = s.refused ∧ t.draws = s.draws ∧ t.inputs = s.inputs.drop k ∧
      (0 < k → t.rspValid = false)

/-- R22, R27, R151: a state with REFUSED set or a recorded fault is never clean again. -/
def Obligations.UncleanStaysUnclean : Prop :=
  ∀ (k : Nat) (s t : State), runSteps k s = .next t → s.isClean = false →
    t.isClean = false

/-! ### Launch and invariant -/

/-- R144: the launch state, and that one reset step leads to its registers from any state with
REFUSED clear and no fault recorded, if the host reads neither register in that step. -/
def Obligations.LaunchState : Prop :=
  State.reset.rspValid = false ∧ portValue State.reset.rspData = none ∧
  portValue State.reset.rspKind = none ∧ State.reset.refused = false ∧
  State.reset.faults = [] ∧
  ∀ s : State, (currentInput s).rst = true → (currentInput s).readData = false →
    (currentInput s).readKind = false → s.refused = false → s.faults = [] →
    ∃ t, step s = .next t ∧ t.rspValid = State.reset.rspValid ∧
      portValue t.rspData = portValue State.reset.rspData ∧
      portValue t.rspKind = portValue State.reset.rspKind ∧
      t.refused = State.reset.refused ∧ t.faults = State.reset.faults

/-- The launch state satisfies the invariant. -/
def Obligations.LaunchStateHasInv : Prop := State.reset.Inv

/-- R16, R17, R18, R21, R55: every step of this machine, and of the machine with any parameters,
keeps the invariant: the two registers are written together, a valid response is a written one,
and a written RSP_DATA is a decoded nibble or a valid codeword with kind NoError. -/
def Obligations.StepKeepsInv : Prop :=
  (∀ s t : State, s.Inv → step s = .next t → t.Inv) ∧
  ∀ (p : Config.Params) (s t : State), s.Inv → stepWith p s = .next t → t.Inv

/-! ### Correction and detection end to end, and under other layouts -/

/-- R105, R106, R108, R117: single-error correction and double-error detection, end to end over two
steps of the machine: the host encodes any nibble, the codeword on RSP_DATA is corrupted by any
error pattern, and the host decodes the result; it may read any response register in either step.
From every state, under every parameter setting (and so for this machine): at most one flipped bit
gives the nibble back with the right kind, two give DoubleBitError; and under the premise of at most
two flips any other kind than DoubleBitError means that the data is right. The only faults recorded
are those of the host's reads in the first step (log entries 6 and 13). -/
def Obligations.EndToEndSecded : Prop :=
  ∀ run : State → Host.Outcome State Fault Refusal, run = step ∨ (∃ p, run = stepWith p) →
    ∀ (s : State) (n : Nibble) (e : Byte) (inp : StepInput),
      (currentInput s).rst = false → (currentInput s).reqValid = true →
      (currentInput s).reqOp = false → (currentInput s).reqArg = 0#4 ++ n →
      inp.rst = false → inp.reqValid = true → inp.reqOp = true →
      ∃ t c u, run s = .next t ∧ portValue t.rspData = some c ∧
        run (setNextInput { inp with reqArg := c ^^^ e } t) = .next u ∧
        u.rspValid = true ∧ u.refused = s.refused ∧
        u.faults = s.faults ++ faultsOf (currentInput s) s ∧
        ((currentInput s).readData = false → (currentInput s).readKind = false →
          u.faults = s.faults) ∧
        (popcount e ≤ 1 → portValue u.rspData = some (0#4 ++ n)) ∧
        (popcount e = 0 → portValue u.rspKind = some 0b00#2) ∧
        (popcount e = 1 → portValue u.rspKind = some (if e = 0x01#8 then 0b10#2 else 0b01#2)) ∧
        (popcount e = 2 → portValue u.rspKind = some 0b11#2) ∧
        (IsCoveredError e → portValue u.rspKind ≠ some 0b11#2 →
          portValue u.rspData = some (0#4 ++ n))

/-- R46, R47, R92: at the canonical layout the layout-generic codec is this hardware's codec, and
the table regenerated from the layout is T. -/
def Obligations.CanonicalLayoutIsThisCodec : Prop :=
  (∀ n : Nibble, encodeNibbleIn canonicalLayout n = encodeNibble n) ∧
  (∀ c : Byte, syndromeIn canonicalLayout c = syndrome c ∧
    parityMismatchIn canonicalLayout c = parityMismatch c) ∧
  (∀ s : Syndrome, (positionOfIn canonicalLayout s).val = (positionOf s).toNat) ∧
  (∀ (d : Config.DoubleFlip) (c : Byte),
    decodeByteIn canonicalLayout d c = decodeByte d c) ∧
  canonicalLayout.IsBijection

/-- R47, R90, R92, R93, R117: for every layout that is a bijection, the codec with its regenerated
table still corrects every single flipped bit and detects every double one, and the table is the
inverse of the parity-check columns. The layout-generic codec stands beside the step, which has the
canonical layout (log entry 11). -/
def Obligations.EveryBijectiveLayoutIsSecded : Prop :=
  ∀ l : Config.BitLayout, l.IsBijection → ∀ (d : Config.DoubleFlip) (n : Nibble),
    decodeByteIn l d (encodeNibbleIn l n) = (n, .noError) ∧
    (∀ j : Fin 8, decodeByteIn l d (encodeNibbleIn l n ^^^ oneHot j) =
      (n, if j = l.p then .parityBitError else .singleBitError)) ∧
    (∀ i j : Fin 8, i ≠ j →
      (decodeByteIn l d (encodeNibbleIn l n ^^^ oneHot i ^^^ oneHot j)).2 = .doubleBitError) ∧
    (∀ j : Fin 8, j ≠ l.p → positionOfIn l (syndromeIn l (oneHot j)) = j) ∧
    ∀ s : Syndrome, s ≠ 0#3 → syndromeIn l (oneHot (positionOfIn l s)) = s
end

