-- ==== Sys2Proof/Laws/Request.lean ====
section
/-! SUPPORT. The fields of a request word, and what the operand forms read from ARG. -/

namespace Sys2Proof

@[simp] theorem opField_requestWord :
    ∀ (op : Bool) (arg : Byte), opField (requestWord op arg) = op := by decide

@[simp] theorem argField_requestWord :
    ∀ (op : Bool) (arg : Byte), argField (requestWord op arg) = arg := by decide

/-- The decoder reads OP and ARG back from the word they make. -/
@[simp] theorem decodeRequest_requestWord (op : Bool) (arg : Byte) :
    decodeRequest (requestWord op arg) = bif op then .dec arg else .enc arg := by
  cases op <;> simp [decodeRequest]

/-- A word is the word of its two fields. -/
@[simp] theorem requestWord_fields :
    ∀ w : RequestWord, requestWord (opField w) (argField w) = w := by decide

/-- A word of at most 9 bits is read as a request. -/
theorem decodeWord_of_fits {w : Nat} (h : w < 512) :
    decodeWord w = .ok (decodeRequest (BitVec.ofNat 9 w)) := if_pos h

/-- A wider word is refused by name. -/
theorem decodeWord_of_too_wide {w : Nat} (h : 512 ≤ w) : decodeWord w = .error (.wordTooWide w) :=
  if_neg (Nat.not_lt.mpr h)

namespace Machine

/-- The upper half of ENCODE's field is 0 exactly when the request is well formed. -/
theorem highField_eq_zero_iff (arg : Byte) :
    highField arg = 0#4 ↔ (Instr.enc arg).wellFormed = true := by
  simp [highField, Instr.wellFormed]

/-- A field ARG is its two halves, and ENCODE reads them back. -/
@[simp] theorem nibbleOperand_append : ∀ h n : Nibble, nibbleOperand (h ++ n) = n := by decide

@[simp] theorem highField_append : ∀ h n : Nibble, highField (h ++ n) = h := by decide

end Machine

end Sys2Proof
end

