-- ==== Sys2Proof/Laws/State.lean ====
section
/-! SUPPORT. What each named operation does to each field of the state, and the small lemmas of the
response registers' ports. -/

namespace Sys2Proof.Machine

/-! ### `respond` -/

@[simp] theorem respond_rspValid (data : Byte) (kind : KindCode) (s : State) :
    (respond data kind s).rspValid = true := rfl
@[simp] theorem respond_rspData (data : Byte) (kind : KindCode) (s : State) :
    (respond data kind s).rspData = writeReg data := rfl
@[simp] theorem respond_rspKind (data : Byte) (kind : KindCode) (s : State) :
    (respond data kind s).rspKind = writeReg kind := rfl
@[simp] theorem respond_refused (data : Byte) (kind : KindCode) (s : State) :
    (respond data kind s).refused = s.refused := rfl
@[simp] theorem respond_faults (data : Byte) (kind : KindCode) (s : State) :
    (respond data kind s).faults = s.faults := rfl
@[simp] theorem respond_inputs (data : Byte) (kind : KindCode) (s : State) :
    (respond data kind s).inputs = s.inputs := rfl
@[simp] theorem respond_samples (data : Byte) (kind : KindCode) (s : State) :
    (respond data kind s).samples = s.samples := rfl
@[simp] theorem respond_draws (data : Byte) (kind : KindCode) (s : State) :
    (respond data kind s).draws = s.draws := rfl

/-! ### `resetOp` -/

@[simp] theorem resetOp_rspValid (s : State) : (resetOp s).rspValid = false := rfl
@[simp] theorem resetOp_rspData (s : State) : (resetOp s).rspData = RspReg.unwritten 8 := rfl
@[simp] theorem resetOp_rspKind (s : State) : (resetOp s).rspKind = RspReg.unwritten 2 := rfl
@[simp] theorem resetOp_refused (s : State) : (resetOp s).refused = s.refused := rfl
@[simp] theorem resetOp_faults (s : State) : (resetOp s).faults = s.faults := rfl
@[simp] theorem resetOp_inputs (s : State) : (resetOp s).inputs = s.inputs := rfl
@[simp] theorem resetOp_samples (s : State) : (resetOp s).samples = s.samples := rfl
@[simp] theorem resetOp_draws (s : State) : (resetOp s).draws = s.draws := rfl

/-! ### `idleOp` -/

@[simp] theorem idleOp_rspValid (s : State) : (idleOp s).rspValid = false := rfl
@[simp] theorem idleOp_rspData (s : State) : (idleOp s).rspData = s.rspData := rfl
@[simp] theorem idleOp_rspKind (s : State) : (idleOp s).rspKind = s.rspKind := rfl
@[simp] theorem idleOp_refused (s : State) : (idleOp s).refused = s.refused := rfl
@[simp] theorem idleOp_faults (s : State) : (idleOp s).faults = s.faults := rfl
@[simp] theorem idleOp_inputs (s : State) : (idleOp s).inputs = s.inputs := rfl
@[simp] theorem idleOp_samples (s : State) : (idleOp s).samples = s.samples := rfl
@[simp] theorem idleOp_draws (s : State) : (idleOp s).draws = s.draws := rfl

/-! ### `refuseRequest` -/

@[simp] theorem refuseRequest_rspValid (r : RefusalReason) (s : State) :
    (refuseRequest r s).rspValid = s.rspValid := rfl
@[simp] theorem refuseRequest_rspData (r : RefusalReason) (s : State) :
    (refuseRequest r s).rspData = s.rspData := rfl
@[simp] theorem refuseRequest_rspKind (r : RefusalReason) (s : State) :
    (refuseRequest r s).rspKind = s.rspKind := rfl
@[simp] theorem refuseRequest_refused (r : RefusalReason) (s : State) :
    (refuseRequest r s).refused = true := rfl
@[simp] theorem refuseRequest_faults (r : RefusalReason) (s : State) :
    (refuseRequest r s).faults = s.faults := rfl
@[simp] theorem refuseRequest_inputs (r : RefusalReason) (s : State) :
    (refuseRequest r s).inputs = s.inputs := rfl
@[simp] theorem refuseRequest_samples (r : RefusalReason) (s : State) :
    (refuseRequest r s).samples = s.samples := rfl
@[simp] theorem refuseRequest_draws (r : RefusalReason) (s : State) :
    (refuseRequest r s).draws = s.draws := rfl

/-! ### `countDraw` -/

@[simp] theorem countDraw_rspValid (s : State) : (countDraw s).rspValid = s.rspValid := rfl
@[simp] theorem countDraw_rspData (s : State) : (countDraw s).rspData = s.rspData := rfl
@[simp] theorem countDraw_rspKind (s : State) : (countDraw s).rspKind = s.rspKind := rfl
@[simp] theorem countDraw_refused (s : State) : (countDraw s).refused = s.refused := rfl
@[simp] theorem countDraw_faults (s : State) : (countDraw s).faults = s.faults := rfl
@[simp] theorem countDraw_inputs (s : State) : (countDraw s).inputs = s.inputs := rfl
@[simp] theorem countDraw_samples (s : State) : (countDraw s).samples = s.samples := rfl
@[simp] theorem countDraw_draws (s : State) : (countDraw s).draws = s.draws + 1 := rfl

/-! ### `setNextInput` -/

@[simp] theorem setNextInput_rspValid (inp : StepInput) (s : State) :
    (setNextInput inp s).rspValid = s.rspValid := rfl
@[simp] theorem setNextInput_rspData (inp : StepInput) (s : State) :
    (setNextInput inp s).rspData = s.rspData := rfl
@[simp] theorem setNextInput_rspKind (inp : StepInput) (s : State) :
    (setNextInput inp s).rspKind = s.rspKind := rfl
@[simp] theorem setNextInput_refused (inp : StepInput) (s : State) :
    (setNextInput inp s).refused = s.refused := rfl
@[simp] theorem setNextInput_faults (inp : StepInput) (s : State) :
    (setNextInput inp s).faults = s.faults := rfl
@[simp] theorem setNextInput_inputs (inp : StepInput) (s : State) :
    (setNextInput inp s).inputs = inp :: s.inputs.tail := rfl
@[simp] theorem setNextInput_samples (inp : StepInput) (s : State) :
    (setNextInput inp s).samples = s.samples := rfl
@[simp] theorem setNextInput_draws (inp : StepInput) (s : State) :
    (setNextInput inp s).draws = s.draws := rfl

/-! ### `hostSide` -/

@[simp] theorem hostSide_rspValid (inp : StepInput) (s : State) :
    (hostSide inp s).rspValid = s.rspValid := rfl
@[simp] theorem hostSide_rspData (inp : StepInput) (s : State) :
    (hostSide inp s).rspData = s.rspData := rfl
@[simp] theorem hostSide_rspKind (inp : StepInput) (s : State) :
    (hostSide inp s).rspKind = s.rspKind := rfl
@[simp] theorem hostSide_refused (inp : StepInput) (s : State) :
    (hostSide inp s).refused = s.refused := rfl
@[simp] theorem hostSide_faults (inp : StepInput) (s : State) :
    (hostSide inp s).faults = s.faults ++ faultsOf inp s := rfl
@[simp] theorem hostSide_inputs (inp : StepInput) (s : State) :
    (hostSide inp s).inputs = s.inputs.tail := rfl
@[simp] theorem hostSide_samples (inp : StepInput) (s : State) :
    (hostSide inp s).samples = s.samples ++ [sampleOf inp s] := rfl
@[simp] theorem hostSide_draws (inp : StepInput) (s : State) :
    (hostSide inp s).draws = s.draws := rfl

@[simp] theorem currentInput_setNextInput (inp : StepInput) (s : State) :
    currentInput (setNextInput inp s) = inp := rfl

/-- A step in which the host reads nothing records no fault. -/
theorem faultsOf_noRead {inp : StepInput} (hd : inp.readData = false) (hk : inp.readKind = false)
    (s : State) : faultsOf inp s = [] := by
  simp [faultsOf, readFaults, hd, hk]

/-! ### `sampleOf` -/

@[simp] theorem sampleOf_valid (inp : StepInput) (s : State) :
    (sampleOf inp s).valid = if inp.readValid then some s.rspValid else none := rfl
@[simp] theorem sampleOf_data (inp : StepInput) (s : State) :
    (sampleOf inp s).data = sampleReg inp.readData s.rspData := rfl
@[simp] theorem sampleOf_kind (inp : StepInput) (s : State) :
    (sampleOf inp s).kind = sampleReg inp.readKind s.rspKind := rfl

/-! ### Ports -/

@[simp] theorem writeReg_value {w : Nat} (v : BitVec w) : (writeReg v).value = v := rfl
@[simp] theorem writeReg_written {w : Nat} (v : BitVec w) : (writeReg v).written = true := rfl
@[simp] theorem unwritten_written (w : Nat) : (RspReg.unwritten w).written = false := rfl
@[simp] theorem portValue_writeReg {w : Nat} (v : BitVec w) : portValue (writeReg v) = some v := rfl
@[simp] theorem portValue_unwritten (w : Nat) : portValue (RspReg.unwritten w) = none := rfl

/-- A register has a value for the host exactly while it is written. -/
theorem portValue_isSome {w : Nat} (r : RspReg w) : (portValue r).isSome = r.written := by
  unfold portValue; split <;> simp_all

/-- The host's view of a register: its bits if written, no value otherwise. -/
theorem portValue_eq_some {w : Nat} (r : RspReg w) (v : BitVec w) :
    portValue r = some v ↔ r.written = true ∧ r.value = v := by
  unfold portValue; split <;> simp_all

/-- A read of a written register gives its value and records no fault. -/
theorem read_written {w : Nat} (r : RspReg w) (h : r.written = true) :
    sampleReg true r = some r.value ∧ readFaults true r = [] := by
  simp [sampleReg, readFaults, portValue, h]

/-- A read of an unwritten register gives no value and records the fault of R21. -/
theorem read_unwritten {w : Nat} (r : RspReg w) (h : r.written = false) :
    sampleReg true r = none ∧ readFaults true r = [.readUnwrittenResponse] := by
  simp [sampleReg, readFaults, portValue, h]

/-- A register the host does not read gives no sample and no fault. -/
@[simp] theorem read_notAsked {w : Nat} (r : RspReg w) :
    sampleReg false r = none ∧ readFaults false r = [] := by
  simp [sampleReg, readFaults]

end Sys2Proof.Machine
end

