-- ==== Sys2Proof/Laws/Ops.lean ====
section
/-! SUPPORT. One lemma per shared operation that says everything it can do. -/

namespace Sys2Proof.Machine

/-- ENCODE either refuses, which only sets the mark, or responds with the codeword. -/
theorem encodeOp_cases (p : Config.Params) (arg : Byte) (s : State) :
    (highField arg ≠ 0#4 ∧ p.encHighNibble = .refuse ∧
        encodeOp p arg s = refuseRequest .encHighNibbleNonzero s) ∨
      ((highField arg = 0#4 ∨ p.encHighNibble = .mask) ∧
        encodeOp p arg s = respond (encodeNibble (nibbleOperand arg)) 0b00#2 s) := by
  by_cases h : highField arg ≠ 0#4 ∧ p.encHighNibble = .refuse
  · exact .inl ⟨h.1, h.2, by simp [encodeOp, encodeRefusal, h]⟩
  · refine .inr ⟨?_, by simp [encodeOp, encodeRefusal, h, kindCode]⟩
    cases hp : p.encHighNibble <;> simp_all

/-- DECODE responds with the decoded nibble, or with a free one where `draw` leaves it open. -/
theorem decodeOp_cases (p : Config.Params) (c : Byte) (s : State) :
    ((decodeByte p.doubleFlip c).2 = .doubleBitError ∧ p.doubleFlip = .draw ∧
        decodeOp p c s = respond (nibbleData (drawnNibble s)) 0b11#2 (countDraw s)) ∨
      (((decodeByte p.doubleFlip c).2 ≠ .doubleBitError ∨ p.doubleFlip ≠ .draw) ∧
        decodeOp p c s = respond (nibbleData (decodeByte p.doubleFlip c).1)
          (kindCode (decodeByte p.doubleFlip c).2) s) := by
  by_cases h : drawsNibble p (decodeByte p.doubleFlip c).2 = true
  · have h' : (decodeByte p.doubleFlip c).2 = .doubleBitError ∧ p.doubleFlip = .draw := by
      simpa [drawsNibble] using h
    have hd : decodeOp p c s = respond (nibbleData (drawnNibble s))
        (kindCode (decodeByte p.doubleFlip c).2) (countDraw s) := by
      simp [decodeOp, codewordOperand, h]
    exact .inl ⟨h'.1, h'.2, by rw [hd, h'.1]; rfl⟩
  · refine .inr ⟨?_, by simp [decodeOp, codewordOperand, h]⟩
    by_contra hc
    exact h (by simpa [drawsNibble] using not_or.mp hc)

/-- Under this machine's parameters DECODE never draws. -/
theorem decodeOp_params (c : Byte) (s : State) :
    decodeOp params c s =
      respond (nibbleData (decodeByte .flip c).1) (kindCode (decodeByte .flip c).2) s := by
  rcases decodeOp_cases params c s with ⟨-, h, -⟩ | ⟨-, h⟩
  · simp [params] at h
  · simpa [params] using h

/-- `exec` is the meaning under this machine's parameters. -/
theorem exec_eq_performWith (i : Instr) (s : State) : exec i s = .next (performWith params i s) := by
  cases i <;> rfl

/-- What a request can change: it refuses, or it responds; the host's side of the state stays. -/
theorem performWith_cases (p : Config.Params) (i : Instr) (s : State) :
    performWith p i s = refuseRequest .encHighNibbleNonzero s ∨
      ∃ data kind, performWith p i s = respond data kind s ∨
        performWith p i s = respond data kind (countDraw s) := by
  cases i with
  | enc arg =>
    rcases encodeOp_cases p arg s with ⟨-, -, h⟩ | ⟨-, h⟩
    · exact .inl h
    · exact .inr ⟨_, _, .inl h⟩
  | dec c =>
    rcases decodeOp_cases p c s with ⟨-, -, h⟩ | ⟨-, h⟩
    · exact .inr ⟨_, _, .inr h⟩
    · exact .inr ⟨_, _, .inl h⟩

/-- What a well-formed request leaves in RSP_DATA on this machine. -/
def responseData : Instr → Byte
  | .enc arg => encodeNibble (nibbleOperand arg)
  | .dec c => nibbleData (decodeByte .flip c).1

/-- What a well-formed request leaves in RSP_KIND on this machine. -/
def responseKind : Instr → KindCode
  | .enc _ => 0b00#2
  | .dec c => kindCode (decodeByte .flip c).2

/-- A well-formed request responds. -/
theorem performWith_wellFormed {i : Instr} (h : i.wellFormed = true) (s : State) :
    performWith params i s = respond (responseData i) (responseKind i) s := by
  cases i with
  | enc arg =>
    rcases encodeOp_cases params arg s with ⟨hn, -, -⟩ | ⟨-, hr⟩
    · exact absurd ((highField_eq_zero_iff arg).2 h) hn
    · exact hr
  | dec c => exact decodeOp_params c s

/-- A request that is not well formed is refused. -/
theorem performWith_reserved {i : Instr} (h : i.wellFormed = false) (s : State) :
    performWith params i s = refuseRequest .encHighNibbleNonzero s := by
  cases i with
  | enc arg =>
    rcases encodeOp_cases params arg s with ⟨-, -, hr⟩ | ⟨hz | hm, -⟩
    · exact hr
    · rw [(highField_eq_zero_iff arg).1 hz] at h; cases h
    · cases hm
  | dec c => cases h

/-- What one cycle can be: a reset, the request presented, or an idle step; each after the host's
side of the step. -/
theorem stepWith_cases {p : Config.Params} {s t : State} (h : stepWith p s = .next t) :
    ((currentInput s).rst = true ∧ t = resetOp (hostSide (currentInput s) s)) ∨
      ((currentInput s).rst = false ∧ (currentInput s).reqValid = true ∧
        t = performWith p
          (decodeRequest (requestWord (currentInput s).reqOp (currentInput s).reqArg))
          (hostSide (currentInput s) s)) ∨
      ((currentInput s).rst = false ∧ (currentInput s).reqValid = false ∧
        t = idleOp (hostSide (currentInput s) s)) := by
  unfold stepWith cycle cycleOn at h
  split at h
  · cases h; simp_all
  · split at h <;> cases h <;> simp_all

/-- The step of this machine is the parametric step at its parameters. -/
theorem step_eq (s : State) :
    step s = .next (match (currentInput s).rst, (currentInput s).reqValid with
      | true, _ => resetOp (hostSide (currentInput s) s)
      | false, true => performWith params
          (decodeRequest (requestWord (currentInput s).reqOp (currentInput s).reqArg))
          (hostSide (currentInput s) s)
      | false, false => idleOp (hostSide (currentInput s) s)) := by
  unfold step cycle cycleOn
  split
  · simp_all
  · split <;> simp_all [exec_eq_performWith]

/-- Whatever kind a step is of, it records the host's reads and moves on to the host's next input. -/
theorem step_hostSide {s t : State} (h : step s = .next t) :
    t.samples = s.samples ++ [sampleOf (currentInput s) s] ∧
      t.faults = s.faults ++ faultsOf (currentInput s) s ∧ t.inputs = s.inputs.tail := by
  rw [step_eq] at h
  cases h
  split
  · simp
  · rcases performWith_cases params
        (decodeRequest (requestWord (currentInput s).reqOp (currentInput s).reqArg))
        (hostSide (currentInput s) s) with hp | ⟨_, _, hp | hp⟩ <;>
      (rw [hp]; simp)
  · simp

end Sys2Proof.Machine
end

