-- ==== Sys2Proof/Laws/PerInstr.lean ====
section
/-! SUPPORT. The per-instruction family `OpcodeRow`: the word of every well-formed request matches
its row of spec/opcode_table.json. -/

namespace Sys2Proof.Laws.OpcodeRow

/-- The row's mask and match value: ENC 0x1F0, 0x000 and DEC 0x100, 0x100. -/
def rowOf : Instr → RequestWord × RequestWord
  | .enc _ => (0x1F0#9, 0x000#9)
  | .dec _ => (0x100#9, 0x100#9)

/-- The word of a well-formed request matches its row. -/
def Statement (i : Instr) : Prop :=
  i.wellFormed = true → encodeRequest i &&& (rowOf i).1 = (rowOf i).2

theorem enc : ∀ arg : Byte, Statement (.enc arg) := by unfold Statement; decide

theorem dec : ∀ c : Byte, Statement (.dec c) := by unfold Statement; decide

end Sys2Proof.Laws.OpcodeRow
end

