-- ==== Sys2Proof/Laws/Run.lean ====
section
/-! SUPPORT. Runs of several steps: the first step is peeled off, and an invariant of one step is an
invariant of every run. -/

namespace Sys2Proof.Machine

@[simp] theorem runSteps_zero (s : State) : runSteps 0 s = .next s := rfl

/-- A step that answers a next state is the first of a longer run. -/
theorem runSteps_succ {s t : State} (h : step s = .next t) (k : Nat) :
    runSteps (k + 1) s = runSteps k t := by
  have h' : Sys2Proof.core.step s = .next t := h
  simp only [runSteps, Host.Core.run, h']
  rfl

/-- What holds of a state and is kept by every step holds after every run. -/
theorem runSteps_induct {P : State → Prop}
    (keep : ∀ s t, P s → step s = .next t → P t) :
    ∀ (k : Nat) (s t : State), P s → runSteps k s = .next t → P t := by
  intro k
  induction k with
  | zero => intro s t hs h; cases h; exact hs
  | succ k ih =>
    intro s t hs h
    rw [runSteps_succ (step_eq s)] at h
    exact ih _ t (keep s _ hs (step_eq s)) h

end Sys2Proof.Machine
end

