-- ==== Sys2Proof/Tests/Slice0.lean ====
section
/-! SUPPORT. Tests against the worked values of spec/95_test_vectors.md and the rules' own examples,
and for each statement with hypotheses a witness that meets them. -/

namespace Sys2Proof.Tests

open Sys2Proof.Machine

/-! ### A small state -/

/-- The launch state with the host doing `inp` in the next step. -/
def at_ (inp : StepInput) : State := setNextInput inp State.reset

/-- A host that holds `rst`, and reads nothing. -/
def resetInput : StepInput := { idleInput with rst := true }

/-- A host that reads all three response registers, and presents nothing. -/
def readInput : StepInput := { idleInput with readValid := true, readData := true, readKind := true }

/-- The state after a step that answers one. -/
def after (s : State) : State :=
  match step s with
  | .next t => t
  | _ => s

/-- What the host finds on the ports: RSP_VALID, RSP_DATA, RSP_KIND. -/
def ports (s : State) : Bool × Option Byte × Option KindCode :=
  (s.rspValid, portValue s.rspData, portValue s.rspKind)

/-! ### Words (spec/30_encoding.md R49 to R60) -/

/-- `ENC 1` is 0b0_0000_0001 (R60). -/
theorem test_decode_enc : decodeRequest 0b000000001#9 = .enc 0x01#8 := by decide

/-- `DEC 0x1C` is 0b1_0001_1100, word 0x11C (R118). -/
theorem test_decode_dec : decodeRequest 0b100011100#9 = .dec 0x1C#8 := by decide

/-- `.word9 0x015` is an ENCODE word with a nonzero upper half (R57). -/
theorem test_decode_reserved : decodeRequest 0b000010101#9 = .enc 0x15#8 := by decide

/-- The word of `DEC 0xFF` is 0x1FF (R49). -/
theorem test_encode_dec : encodeRequest (.dec 0xFF#8) = 0x1FF#9 := by decide

/-- A word of ten bits is refused by name (R59). -/
theorem test_decode_too_wide : decodeWord 0x200 = .error (.wordTooWide 0x200) := by decide

/-- The table's rows, in whole bytes. -/
theorem test_table_words :
    decodeTableWord 16 0x000 = some (.enc 0#8) ∧ decodeTableWord 16 0x100 = some (.dec 0#8) := by
  decide

/-- The well-formedness check refuses an ENCODE field above 15 (R57) ... -/
theorem test_wellFormed_refuses_high_nibble : (Instr.enc 0x10#8).wellFormed = false := by decide

/-- ... and takes 15, and every codeword. -/
theorem test_wellFormed_takes :
    (Instr.enc 0x0F#8).wellFormed = true ∧ (Instr.dec 0xFF#8).wellFormed = true := by decide

/-! ### Single steps (spec/95_test_vectors.md) -/

/-- Section 2.2: `ENC 8` gives 0x8D with NoError (conflict C1). -/
theorem test_enc_8 : ports (after (State.reset.withFetchWord 16 0x008)) =
    (true, some 0x8D#8, some 0b00#2) := by decide

/-- Program P5, step 2: `.word9 0x015` sets REFUSED and changes no port. -/
theorem test_enc_reserved : (after (State.reset.withFetchWord 16 0x015)).refused = true ∧
    ports (after (State.reset.withFetchWord 16 0x015)) = ports State.reset := by decide

/-- Program P6, step 2: the same word under `mask` gives 0x55. -/
theorem test_enc_reserved_mask : ports (performWith { encHighNibble := .mask, doubleFlip := .flip }
    (.enc 0x15#8) State.reset) = (true, some 0x55#8, some 0b00#2) := by decide

/-- R111: 0x18 is 0x1E with bits 1 and 2 flipped; the flip-anyway nibble is 3. -/
theorem test_dec_double : ports (after (State.reset.withFetchWord 16 0x118)) =
    (true, some 0x03#8, some 0b11#2) := by decide

/-- Section 2.5: 0x0D is 0x8D with bit 7 flipped. -/
theorem test_dec_single : ports (after (State.reset.withFetchWord 16 0x10D)) =
    (true, some 0x08#8, some 0b01#2) := by decide

/-- Section 2.5, last row of the first table: 0x3F under `noflip` gives 3. -/
theorem test_dec_double_noflip : decodeByte .noflip 0x3F#8 = (3#4, .doubleBitError) := by decide

/-- Program P4, step 2: `rst` drops the request presented with it. -/
theorem test_reset_wins : ports (after (at_ { requestInput true 0x1E#8 with rst := true })) =
    (false, none, none) := by decide

/-- Program P4, step 3: reading both unwritten registers records the fault for each. -/
theorem test_unwritten_read : (after (at_ readInput)).faults =
    [.readUnwrittenResponse, .readUnwrittenResponse] := by decide

/-- Program P1, step 4: an idle step clears RSP_VALID and holds the response of `DEC 0x1C`. -/
theorem test_idle_holds : ports (after (after (State.reset.withFetchWord 16 0x11C))) =
    (false, some 0x01#8, some 0b01#2) := by decide

/-! ### Codec values -/

/-- R88: the worked example of the syndrome. -/
theorem test_syndrome : syndrome 0x1C#8 = 0b001#3 ∧ parityMismatch 0x1C#8 = true := by decide

/-- C1: the source's literal 0x87 has syndrome 0b101. -/
theorem test_syndrome_0x87 : syndrome 0x87#8 = 0b101#3 ∧ parityMismatch 0x87#8 = false := by decide

/-- R96: T[3] is position 5. -/
theorem test_table : positionOf 3#3 = 5#3 := by decide

/-! ### Witnesses: each meets the hypotheses of the statement it names -/

theorem witness_StepRunsDecodedRequest :
    (currentInput (at_ (requestInput true 0x1C#8))).rst = false ∧
    (currentInput (at_ (requestInput true 0x1C#8))).reqValid = true := by decide

theorem witness_PresentedWordRunsNext : 9 ≤ 16 ∧ (encodeRequest (.dec 0x1C#8)).toNat = 0x11C := by
  decide

/-- Also for the reset clauses of ValidExactlyAfterRequest and UnwrittenReadRecordsFault. -/
theorem witness_ResetStepDropsRequest : (currentInput (at_ resetInput)).rst = true ∧
    (currentInput (at_ resetInput)).readData = false ∧
    (currentInput (at_ resetInput)).readKind = false := by decide

theorem witness_HeldResetIsOneReset :
    let s := { State.reset with inputs := [resetInput, resetInput, resetInput] }
    2 + 1 ≤ s.inputs.length ∧ (∀ inp ∈ s.inputs.take (2 + 1), inp.rst = true) ∧
    ∀ inp ∈ s.inputs.take (2 + 1), inp.readData = false ∧ inp.readKind = false := by decide

/-- Both an idle input of the host's and no input at all. -/
theorem witness_IdleStepHoldsResponse :
    ((currentInput (at_ readInput)).rst = false ∧ (currentInput (at_ readInput)).reqValid = false) ∧
    (currentInput State.reset).rst = false ∧ (currentInput State.reset).reqValid = false := by
  decide

theorem witness_ReservedEncodeWords : (1#4 : Nibble) ≠ 0#4 ∧ (15#4 : Nibble) ≠ 0#4 := by decide

theorem witness_CodewordsAreValidAndFarApart : (0#4 : Nibble) ≠ 15#4 ∧
    popcount (encodeNibble 0#4 ^^^ encodeNibble 1#4) = 4 := by decide

theorem witness_ParityCheckColumns : (1 : Fin 8) ≠ 0 ∧ (7 : Fin 8) ≠ 0 ∧
    syndrome (oneHot 7) = 0b110#3 := by decide

/-- Also for OneHotDecodeEqualsTable and ClassificationTable: the first and the last index. -/
theorem witness_PositionTableIsBijection :
    ((1#3 : Syndrome) ≠ 0#3 ∧ positionOf 1#3 = 1#3) ∧
    (7#3 : Syndrome) ≠ 0#3 ∧ positionOf 7#3 = 4#3 := by decide

theorem witness_FlipMaskTouchesAtMostOneBit :
    (classifyCorrect .flip 0x1E#8 0#3 false).1 = .noError ∧
    (classifyCorrect .flip 0x1F#8 0#3 true).1 = .parityBitError ∧
    flipMask .flip 0#3 false = 0#8 ∧ popcount (flipMask .flip 7#3 false) = 1 := by decide

/-- One error pattern for each clause, at the ends of the ranges. -/
theorem witness_GuaranteesUpToTwoFlips : popcount 0x00#8 = 0 ∧ popcount 0x03#8 = 2 ∧
    popcount 0xC0#8 = 2 ∧ (0x02#8 : Byte) = 1#8 <<< (1#3).toNat ∧
    (0x80#8 : Byte) = 1#8 <<< (7#3).toNat := by decide

theorem witness_ThreeAndFourFlipsMisclassify : popcount 0x26#8 = 3 ∧ popcount 0x0F#8 = 4 ∧
    popcount 0x1E#8 = 4 ∧ (decodeByte .flip (encodeNibble 0#4 ^^^ 0x1E#8)).2 = .noError := by decide

/-- The first disjunct with `draw`, and the second with a DoubleBitError. -/
theorem witness_DecodeRespondsWithNibbleAndKind :
    (decodeByte .draw 0x1C#8).2 ≠ .doubleBitError ∧
    (decodeByte .noflip 0x3F#8).2 = .doubleBitError ∧ Config.DoubleFlip.noflip ≠ .draw := by decide

theorem witness_DoubleErrorUnderDrawIsFree :
    syndrome 0x3F#8 ≠ 0#3 ∧ parityMismatch 0x3F#8 = false := by decide

/-- A byte of each kind; the flip positions 1, 3, 4 and 7 of a single error. -/
theorem witness_NibbleFromReceivedDataBits :
    classify (syndrome 0x1E#8) (parityMismatch 0x1E#8) = .noError ∧
    classify (syndrome 0x1F#8) (parityMismatch 0x1F#8) = .parityBitError ∧
    classify (syndrome 0x1C#8) (parityMismatch 0x1C#8) = .singleBitError ∧
    positionOf (syndrome 0x1C#8) = 1#3 ∧ positionOf (syndrome 0x85#8) = 3#3 ∧
    positionOf (syndrome 0x9D#8) = 4#3 ∧ positionOf (syndrome 0x0D#8) = 7#3 ∧
    classify (syndrome 0x3F#8) (parityMismatch 0x3F#8) = .doubleBitError := by decide

theorem witness_KindCountsOverAllBytes : (decodeByte .draw 0x3F#8).2 = .doubleBitError := by decide

theorem witness_SourceCodecProperties : (0 : Fin 8) ≠ 7 ∧ (6 : Fin 8) ≠ 7 := by decide

/-- Each hypothesis of the frame's clauses. -/
theorem witness_RequestFrame : (Instr.enc 0x0F#8).wellFormed = true ∧
    (Instr.enc 0x10#8).wellFormed = false ∧ params.encHighNibble = .refuse ∧
    params.doubleFlip ≠ .draw ∧
    (∀ c, Instr.dec 0x1C#8 = .dec c → syndrome c = 0#3 ∨ parityMismatch c = true) := by
  refine ⟨by decide, by decide, by decide, by decide, ?_⟩
  intro c h
  cases h
  decide

/-- A well-formed request without a DoubleBitError for the first clause, and one of each kind with
and without it for the other two. -/
theorem witness_ParametersMatterOnlyWhereOpen : ((Instr.dec 0x1C#8).wellFormed = true ∧
    ∀ c, Instr.dec 0x1C#8 = .dec c →
      classify (syndrome c) (parityMismatch c) ≠ .doubleBitError) ∧
    (Instr.dec 0x3F#8).wellFormed = true ∧ (Instr.enc 0x0F#8).wellFormed = true := by
  refine ⟨⟨by decide, ?_⟩, by decide, by decide⟩
  intro c h
  cases h
  decide

/-- Two states that differ in every response register and in REFUSED, with the same request. -/
theorem witness_ResponseIgnoresHistory :
    let s₁ := at_ (requestInput true 0x1C#8)
    let s₂ := { respond 0xFF#8 0b11#2 (refuseRequest .encHighNibbleNonzero State.reset) with
      inputs := [requestInput true 0x1C#8] }
    (currentInput s₁).rst = false ∧ (currentInput s₂).rst = false ∧
    (currentInput s₁).reqValid = true ∧ (currentInput s₂).reqValid = true ∧
    (currentInput s₁).reqOp = (currentInput s₂).reqOp ∧
    (currentInput s₁).reqArg = (currentInput s₂).reqArg ∧
    (decodeRequest (requestWord (currentInput s₁).reqOp (currentInput s₁).reqArg)).wellFormed = true ∧
    step s₁ = .next (after s₁) ∧ step s₂ = .next (after s₂) := by
  exact ⟨rfl, rfl, rfl, rfl, rfl, rfl, by decide, rfl, rfl⟩

/-- A step of each kind: reset, idle, well-formed request, reserved request. -/
theorem witness_ValidExactlyAfterRequest :
    step (at_ resetInput) = .next (after (at_ resetInput)) ∧
    step (at_ idleInput) = .next (after (at_ idleInput)) ∧
    step (at_ (requestInput false 0x0F#8)) = .next (after (at_ (requestInput false 0x0F#8))) ∧
    step (at_ (requestInput false 0x10#8)) = .next (after (at_ (requestInput false 0x10#8))) ∧
    (after (at_ (requestInput false 0x0F#8))).refused = false := by
  exact ⟨rfl, rfl, rfl, rfl, by decide⟩

/-- REFUSED clear and set before a step, and a reserved request at both ends of its range. -/
theorem witness_RefusedIsSticky : (at_ (requestInput false 0x10#8)).refused = false ∧
    (requestInput false 0x10#8).reqArg.extractLsb' 4 4 ≠ 0#4 ∧
    (requestInput false 0xFF#8).reqArg.extractLsb' 4 4 ≠ 0#4 ∧
    (after (at_ (requestInput false 0x10#8))).refused = true ∧
    step (after (at_ (requestInput false 0x10#8))) =
      .next (after (after (at_ (requestInput false 0x10#8)))) := by
  exact ⟨by decide, by decide, by decide, by decide, rfl⟩

/-- The host reads all three registers: in a reset step and in an idle step after launch, where both
are unwritten, with a request, and in an idle step after a response, where both are written. -/
theorem witness_UnwrittenReadRecordsFault :
    let inReset := at_ { readInput with rst := true }
    let inRequest := at_ { readInput with reqValid := true, reqOp := true, reqArg := 0x1C#8 }
    let responded := setNextInput readInput (after (State.reset.withFetchWord 16 0x11C))
    (step inReset = .next (after inReset) ∧ (currentInput inReset).rst = true) ∧
    (step (at_ readInput) = .next (after (at_ readInput)) ∧
      (at_ readInput).rspData.written = false ∧ (at_ readInput).rspKind.written = false) ∧
    (step inRequest = .next (after inRequest) ∧
      (decodeRequest (requestWord (currentInput inRequest).reqOp
        (currentInput inRequest).reqArg)).wellFormed = true) ∧
    step responded = .next (after responded) ∧ responded.rspData.written = true ∧
      responded.rspKind.written = true := by
  exact ⟨⟨rfl, rfl⟩, ⟨rfl, rfl, rfl⟩, ⟨rfl, by decide⟩, rfl, rfl, rfl⟩

/-- R16: the host reads RSP_VALID as 0 in a step after launch, and after a reset step; and as 1 in
the idle step after a request, which then clears it. -/
theorem test_read_valid :
    let read := fun s => (after (setNextInput readInput s)).samples.getLast?.bind Sample.valid
    read State.reset = some false ∧ read (after (at_ resetInput)) = some false ∧
    read (after (State.reset.withFetchWord 16 0x11C)) = some true ∧
    read (after (after (State.reset.withFetchWord 16 0x11C))) = some false := by decide

theorem witness_ResponseSeenInNextStep :
    let s := { State.reset with inputs := [requestInput false 0x01#8, readInput] }
    (currentInput s).rst = false ∧ (currentInput s).reqValid = true ∧
    (decodeRequest (requestWord (currentInput s).reqOp (currentInput s).reqArg)).wellFormed = true ∧
    step s = .next (after s) ∧ (currentInput (after s)).readValid = true ∧
    (currentInput (after s)).readData = true ∧ (currentInput (after s)).readKind = true ∧
    step (after s) = .next (after (after s)) := by
  exact ⟨rfl, rfl, by decide, rfl, rfl, rfl, rfl, rfl⟩

theorem witness_ResponseHeldOverIdleSteps :
    let s := { State.reset with inputs := [readInput, idleInput, resetInput] }
    ∀ inp ∈ s.inputs.take 2, inp.rst = false ∧ inp.reqValid = false := by decide

/-- Unclean by REFUSED, and unclean by a recorded fault. -/
theorem witness_UncleanStaysUnclean :
    (after (at_ (requestInput false 0x10#8))).isClean = false ∧
    (after (at_ readInput)).isClean = false ∧
    runSteps 1 (after (at_ readInput)) = .next (after (after (at_ readInput))) := by
  exact ⟨by decide, by decide, rfl⟩

theorem witness_LaunchState : (currentInput (at_ resetInput)).rst = true ∧
    (currentInput (at_ resetInput)).readData = false ∧
    (currentInput (at_ resetInput)).readKind = false ∧
    (at_ resetInput).refused = false ∧ (at_ resetInput).faults = [] := by decide

/-- The invariant holds before a step of this machine and of one with other parameters. -/
theorem witness_StepKeepsInv : (at_ (requestInput true 0x1C#8)).Inv ∧
    step (at_ (requestInput true 0x1C#8)) = .next (after (at_ (requestInput true 0x1C#8))) ∧
    stepWith { encHighNibble := .mask, doubleFlip := .noflip } (at_ idleInput) =
      .next (after (at_ idleInput)) := by
  exact ⟨⟨by decide, by decide, by decide⟩, rfl, rfl⟩

/-- A first request with reads and one without, a second request with reads, an error pattern for
each clause, and a kind that is not DoubleBitError. -/
theorem witness_EndToEndSecded :
    let first := at_ { readInput with reqValid := true, reqArg := 0#4 ++ 9#4 }
    let silent := at_ (requestInput false (0#4 ++ 9#4))
    let second := { readInput with reqValid := true, reqOp := true }
    ((currentInput first).rst = false ∧ (currentInput first).reqValid = true ∧
      (currentInput first).reqOp = false ∧ (currentInput first).reqArg = 0#4 ++ 9#4) ∧
    ((currentInput silent).reqArg = 0#4 ++ 9#4 ∧ (currentInput silent).readData = false ∧
      (currentInput silent).readKind = false) ∧
    (second.rst = false ∧ second.reqValid = true ∧ second.reqOp = true) ∧
    popcount 0x00#8 = 0 ∧ popcount 0x01#8 = 1 ∧ popcount 0x80#8 = 1 ∧ popcount 0x81#8 = 2 ∧
    IsCoveredError 0x81#8 ∧ kindCode (decodeByte .flip (encodeNibble 9#4 ^^^ 0x80#8)).2 ≠ 0b11#2 := by
  decide

/-- A layout that is not the canonical one: data and check bits exchanged end to end. -/
theorem witness_EveryBijectiveLayoutIsSecded :
    let l : Config.BitLayout :=
      { d0 := 3, d1 := 2, d2 := 1, d3 := 0, h0 := 6, h1 := 5, h2 := 4, p := 7 }
    l.IsBijection ∧ (0 : Fin 8) ≠ l.p ∧ (7 : Fin 8) = l.p := by decide

end Sys2Proof.Tests
end

section
/-! PROOFS. Scope: this machine is the parametric model at the default parameters, and where the
two parameters matter (spec/00_scope.md R6, R23, R57, R104). -/

namespace Sys2Proof.Machine

/-! ### The default parameters -/

/-- This machine's step is the parametric step at this machine's parameters. -/
theorem step_eq_stepWith_params (s : State) : step s = stepWith params s := by
  have hrun : exec = fun i s => .next (performWith params i s) := funext₂ exec_eq_performWith
  rw [step, stepWith, hrun]

/-- Settles O10: `exec` is the parametric meaning at `params`, and both steps are the same cycle
over it. -/
theorem stepIsDefaultParametricStep : Obligations.StepIsDefaultParametricStep :=
  ⟨step_eq_stepWith_params, exec_eq_performWith⟩

/-! ### What the parameters leave alone -/

/-- A well-formed ENCODE word is never refused, whatever `ENC_HIGH_NIBBLE` is. -/
theorem encodeOp_wellFormed {arg : Byte} (h : (Instr.enc arg).wellFormed = true)
    (p : Config.Params) (s : State) :
    encodeOp p arg s = respond (encodeNibble (nibbleOperand arg)) 0b00#2 s := by
  rcases encodeOp_cases p arg s with ⟨hn, -, -⟩ | ⟨-, hr⟩
  · exact absurd ((highField_eq_zero_iff arg).2 h) hn
  · exact hr

/-- The kind DECODE reports does not look at `DOUBLE_FLIP`. -/
@[simp] theorem decodeByte_kind (d : Config.DoubleFlip) (c : Byte) :
    (decodeByte d c).2 = classify (syndrome c) (parityMismatch c) := rfl

/-- Without a DoubleBitError, a nonzero syndrome comes with a parity mismatch, which alone enables
the flip: `DOUBLE_FLIP` has no say. -/
theorem flipEnable_of_not_double {s : Syndrome} {pm : Bool}
    (h : classify s pm ≠ .doubleBitError) (d : Config.DoubleFlip) : flipEnable d s pm = pm := by
  cases pm with
  | true => rfl
  | false =>
    have hs : s = 0#3 := by
      by_contra hs
      exact h (by simp [classify, hs])
    simp [flipEnable, hs]

/-- Without a DoubleBitError the decoded nibble does not look at `DOUBLE_FLIP`. -/
theorem decodeByte_of_not_double {c : Byte}
    (h : classify (syndrome c) (parityMismatch c) ≠ .doubleBitError) (d₁ d₂ : Config.DoubleFlip) :
    decodeByte d₁ c = decodeByte d₂ c := by
  simp only [decodeByte, classifyCorrect, flipMask, flipEnable_of_not_double h]

/-- A well-formed request that meets no DoubleBitError responds as on this machine, under every
setting. -/
theorem performWith_of_not_double {i : Instr} (h : i.wellFormed = true)
    (hk : ∀ c, i = .dec c → classify (syndrome c) (parityMismatch c) ≠ .doubleBitError)
    (p : Config.Params) (s : State) :
    performWith p i s = respond (responseData i) (responseKind i) s := by
  cases i with
  | enc arg => exact encodeOp_wellFormed h p s
  | dec c =>
    have hc := hk c rfl
    rcases decodeOp_cases p c s with ⟨hd, -, -⟩ | ⟨-, hr⟩
    · exact absurd (decodeByte_kind p.doubleFlip c ▸ hd) hc
    · rw [decodeByte_of_not_double hc p.doubleFlip .flip] at hr
      exact hr

/-- Under every setting a well-formed request responds with this machine's kind and with the upper
half of this machine's RSP_DATA; a DoubleBitError may count a draw first. -/
theorem performWith_wellFormed_cases {i : Instr} (h : i.wellFormed = true) (p : Config.Params)
    (s : State) :
    ∃ data t, highField data = highField (responseData i) ∧ (t = s ∨ t = countDraw s) ∧
      performWith p i s = respond data (responseKind i) t := by
  cases i with
  | enc arg => exact ⟨_, s, rfl, .inl rfl, encodeOp_wellFormed h p s⟩
  | dec c =>
    have upper (n : Nibble) : highField (nibbleData n) = highField (responseData (.dec c)) := by
      simp [nibbleData, responseData]
    have hkind : responseKind (.dec c) = kindCode (decodeByte p.doubleFlip c).2 := by
      simp [responseKind]
    rcases decodeOp_cases p c s with ⟨hd, -, hr⟩ | ⟨-, hr⟩
    · exact ⟨_, countDraw s, upper _, .inr rfl, by rw [hkind, hd]; exact hr⟩
    · exact ⟨_, s, upper _, .inl rfl, by rw [hkind]; exact hr⟩

/-- Every field a well-formed request leaves, but for RSP_DATA[3:0] and the draw counter, without
mention of the setting. -/
theorem performWith_wellFormed_fields {i : Instr} (h : i.wellFormed = true) (p : Config.Params)
    (s : State) :
    (performWith p i s).rspKind = writeReg (responseKind i) ∧
      (performWith p i s).rspValid = true ∧ (performWith p i s).rspData.written = true ∧
      highField (performWith p i s).rspData.value = highField (responseData i) ∧
      (performWith p i s).refused = s.refused ∧ (performWith p i s).faults = s.faults ∧
      (performWith p i s).inputs = s.inputs ∧ (performWith p i s).samples = s.samples := by
  obtain ⟨data, t, hdata, ht, hp⟩ := performWith_wellFormed_cases h p s
  rw [hp]
  rcases ht with rfl | rfl <;> simp [hdata]

/-- `ENC_HIGH_NIBBLE` alone: a well-formed ENCODE is never refused, and DECODE does not look at
it. -/
theorem performWith_encHighNibble_irrelevant {i : Instr} (h : i.wellFormed = true)
    (h₁ h₂ : Config.EncHighNibble) (d : Config.DoubleFlip) (s : State) :
    performWith { encHighNibble := h₁, doubleFlip := d } i s =
      performWith { encHighNibble := h₂, doubleFlip := d } i s := by
  cases i with
  | enc arg => exact (encodeOp_wellFormed h _ s).trans (encodeOp_wellFormed h _ s).symm
  | dec c => rfl

/-- Settles O33: clause by clause from the response of a well-formed request; ENCODE never looks at
`DOUBLE_FLIP`, so the last clause holds by definition. -/
theorem parametersMatterOnlyWhereOpen : Obligations.ParametersMatterOnlyWhereOpen := by
  refine ⟨fun p q i s h hk => ?_, fun p q i s h => ?_, fun h₁ h₂ d i s h => ?_,
    fun _ _ _ _ _ => rfl⟩
  · rw [performWith_of_not_double h hk p, performWith_of_not_double h hk q]
  · obtain ⟨kp, vp, wp, dp, rp, fp, ip, sp⟩ := performWith_wellFormed_fields h p s
    obtain ⟨kq, vq, wq, dq, rq, fq, iq, sq⟩ := performWith_wellFormed_fields h q s
    exact ⟨kp.trans kq.symm, vp, vq, wp, wq, dp.trans dq.symm, rp.trans rq.symm, fp.trans fq.symm,
      ip.trans iq.symm, sp.trans sq.symm⟩
  · exact performWith_encHighNibble_irrelevant h h₁ h₂ d s

end Sys2Proof.Machine
end

section
/-! PROOFS. State: what one step of each kind does to the response registers, REFUSED, the fault
list and the samples, and what every step keeps (spec/10_state.md R16 to R27,
spec/70_reset_and_hazards.md R141 to R151). -/

namespace Sys2Proof.Machine

/-! ### The invariant of the response registers -/

/-- The invariant speaks of the response registers alone: it stays where RSP_DATA and RSP_KIND are
held and RSP_VALID is not newly set. -/
theorem State.Inv.of_held {s t : State} (hs : s.Inv) (hdata : t.rspData = s.rspData)
    (hkind : t.rspKind = s.rspKind) (hvalid : t.rspValid = true → s.rspValid = true) : t.Inv := by
  obtain ⟨htogether, hwritten, hform⟩ := hs
  exact ⟨by rw [hdata, hkind]; exact htogether, fun h => hdata ▸ hwritten (hvalid h),
    by rw [hdata, hkind]; exact hform⟩

/-- A reset establishes the invariant: nothing is written and nothing is valid. -/
theorem resetOp_inv (s : State) : (resetOp s).Inv := ⟨rfl, nofun, nofun⟩

/-- A response establishes the invariant if it is a nibble, or a codeword with kind NoError. -/
theorem respond_inv {data : Byte} {kind : KindCode}
    (h : highField data = 0#4 ∨ (IsCodeword data ∧ kind = kindCode .noError)) (s : State) :
    (respond data kind s).Inv :=
  ⟨rfl, fun _ => rfl, fun _ => h⟩

/-- R74: the encoder's outputs are valid codewords. -/
theorem isCodeword_encodeNibble : ∀ n : Nibble, IsCodeword (encodeNibble n) := by decide

/-- R118: DECODE's response has its upper half clear. -/
@[simp] theorem highField_nibbleData (n : Nibble) : highField (nibbleData n) = 0#4 :=
  highField_append 0#4 n

theorem performWith_inv (p : Config.Params) (i : Instr) {s : State} (hs : s.Inv) :
    (performWith p i s).Inv := by
  cases i with
  | enc arg =>
    rcases encodeOp_cases p arg s with ⟨-, -, hr⟩ | ⟨-, hr⟩ <;> rw [performWith, hr]
    · exact hs.of_held rfl rfl id
    · exact respond_inv (.inr ⟨isCodeword_encodeNibble _, rfl⟩) s
  | dec c =>
    rcases decodeOp_cases p c s with ⟨-, -, hr⟩ | ⟨-, hr⟩ <;> rw [performWith, hr]
    · exact respond_inv (.inl (highField_nibbleData _)) _
    · exact respond_inv (.inl (highField_nibbleData _)) s

theorem stepWith_inv {p : Config.Params} {s t : State} (hs : s.Inv) (h : stepWith p s = .next t) :
    t.Inv := by
  have hhost : (hostSide (currentInput s) s).Inv := hs.of_held rfl rfl id
  rcases stepWith_cases h with ⟨-, rfl⟩ | ⟨-, -, rfl⟩ | ⟨-, -, rfl⟩
  · exact resetOp_inv _
  · exact performWith_inv p _ hhost
  · exact hhost.of_held rfl rfl nofun

/-- Settles O43: each kind of step keeps the invariant, and this machine's step is the parametric
one at its own parameters. -/
theorem stepKeepsInv : Obligations.StepKeepsInv :=
  ⟨fun s _ hs h => stepWith_inv hs (step_eq_stepWith_params s ▸ h),
    fun _ _ _ => stepWith_inv⟩

/-- Settles O42: the launch state is the state after a reset. -/
theorem launchStateHasInv : Obligations.LaunchStateHasInv := resetOp_inv State.reset

/-! ### What one step can be -/

/-- The request the host presents in the next step. -/
abbrev presentedRequest (s : State) : Instr :=
  decodeRequest (requestWord (currentInput s).reqOp (currentInput s).reqArg)

theorem step_of_reset {s : State} (hrst : (currentInput s).rst = true) :
    step s = .next (resetOp (hostSide (currentInput s) s)) := by
  simp [step_eq, hrst]

theorem step_of_request {s : State} (hrst : (currentInput s).rst = false)
    (hreq : (currentInput s).reqValid = true) :
    step s = exec (presentedRequest s) (hostSide (currentInput s) s) := by
  simp [step_eq, hrst, hreq, exec_eq_performWith]

theorem step_of_idle {s : State} (hrst : (currentInput s).rst = false)
    (hreq : (currentInput s).reqValid = false) :
    step s = .next (idleOp (hostSide (currentInput s) s)) := by
  simp [step_eq, hrst, hreq]

theorem step_of_wellFormed {s : State} (hrst : (currentInput s).rst = false)
    (hreq : (currentInput s).reqValid = true) (hwf : (presentedRequest s).wellFormed = true) :
    step s = .next (respond (responseData (presentedRequest s)) (responseKind (presentedRequest s))
      (hostSide (currentInput s) s)) := by
  rw [step_of_request hrst hreq, exec_eq_performWith, performWith_wellFormed hwf]

theorem step_of_reserved {s : State} (hrst : (currentInput s).rst = false)
    (hreq : (currentInput s).reqValid = true) (hwf : (presentedRequest s).wellFormed = false) :
    step s = .next (refuseRequest .encHighNibbleNonzero (hostSide (currentInput s) s)) := by
  rw [step_of_request hrst hreq, exec_eq_performWith, performWith_reserved hwf]

/-- The four kinds of step of this machine: reset, response, refusal, idle. -/
theorem step_cases {s t : State} (h : step s = .next t) :
    ((currentInput s).rst = true ∧ t = resetOp (hostSide (currentInput s) s)) ∨
      ((currentInput s).rst = false ∧ (currentInput s).reqValid = true ∧
        (presentedRequest s).wellFormed = true ∧
        t = respond (responseData (presentedRequest s)) (responseKind (presentedRequest s))
          (hostSide (currentInput s) s)) ∨
      ((currentInput s).rst = false ∧ (currentInput s).reqValid = true ∧
        (presentedRequest s).wellFormed = false ∧
        t = refuseRequest .encHighNibbleNonzero (hostSide (currentInput s) s)) ∨
      ((currentInput s).rst = false ∧ (currentInput s).reqValid = false ∧
        t = idleOp (hostSide (currentInput s) s)) := by
  rw [step_eq_stepWith_params] at h
  rcases stepWith_cases h with ⟨hrst, ht⟩ | ⟨hrst, hreq, ht⟩ | ⟨hrst, hreq, ht⟩
  · exact .inl ⟨hrst, ht⟩
  · cases hwf : (presentedRequest s).wellFormed with
    | true => exact .inr (.inl ⟨hrst, hreq, rfl, ht.trans (performWith_wellFormed hwf _)⟩)
    | false => exact .inr (.inr (.inl ⟨hrst, hreq, rfl, ht.trans (performWith_reserved hwf _)⟩))
  · exact .inr (.inr (.inr ⟨hrst, hreq, ht⟩))

/-! ### Presenting a request -/

theorem decodeRequest_encodeRequest (i : Instr) : decodeRequest (encodeRequest i) = i := by
  cases i <;> simp [encodeRequest]

/-- Every 9-bit word can be presented. -/
theorem presentWord_toNat (w : RequestWord) (s : State) :
    presentWord w.toNat s = setNextInput (requestInput (opField w) (argField w)) s := by
  simp [presentWord, decodeWord_of_fits w.isLt]

/-- A width of at least 9 bits cuts nothing off a 9-bit word. -/
theorem withFetchWord_toNat {nbits : Nat} (h : 9 ≤ nbits) (w : RequestWord) (s : State) :
    s.withFetchWord nbits w.toNat = setNextInput (requestInput (opField w) (argField w)) s := by
  have hfits : w.toNat < 2 ^ nbits := w.isLt.trans_le (Nat.pow_le_pow_right (by decide) h)
  rw [State.withFetchWord, Nat.mod_eq_of_lt hfits, presentWord_toNat]

/-- The host's side of a step in which the host reads nothing. -/
theorem hostSide_requestInput (op : Bool) (arg : Byte) (s : State) :
    hostSide (requestInput op arg) s = { s with
      inputs := s.inputs.tail
      samples := s.samples ++ [{ valid := none, data := none, kind := none }] } := by
  rw [hostSide, faultsOf_noRead rfl rfl, List.append_nil]
  rfl

/-- The host's side of a step drops that step's entry of the inputs, whatever stood there. -/
@[simp] theorem hostSide_setNextInput (inp next : StepInput) (s : State) :
    hostSide inp (setNextInput next s) = hostSide inp s := rfl

/-- Settles O5: the presented word is read back as its request, in a step without host reads. -/
theorem presentedWordRunsNext : Obligations.PresentedWordRunsNext := by
  intro s nbits i hn
  rw [withFetchWord_toNat hn, step_of_request rfl rfl, presentedRequest, currentInput_setNextInput,
    hostSide_setNextInput, hostSide_requestInput, requestInput, requestWord_fields,
    decodeRequest_encodeRequest]

/-- Settles O4: the step by its case, and the host's side field by field. -/
theorem stepRunsDecodedRequest : Obligations.StepRunsDecodedRequest :=
  ⟨fun _ hrst hreq => step_of_request hrst hreq, fun _ _ => by simp⟩

/-- Settles O6: the reset clears after the host's side of the step, and neither looks at the request
lines. -/
theorem resetStepDropsRequest : Obligations.ResetStepDropsRequest := by
  intro s hrst
  refine ⟨⟨_, step_of_reset hrst, ?_⟩, fun valid op arg => ?_⟩
  · simp +contextual [faultsOf_noRead]
  · rw [step_of_reset hrst]
    exact step_of_reset hrst

/-- Settles O8: an idle step clears RSP_VALID after the host's side of the step, and holds the rest. -/
theorem idleStepHoldsResponse : Obligations.IdleStepHoldsResponse := by
  intro s hrst hreq
  exact ⟨_, step_of_idle hrst hreq, by simp⟩

/-! ### The frame of a request -/

/-- A request does not touch the host's side of the state. -/
theorem performWith_hostFields (p : Config.Params) (i : Instr) (s : State) :
    (performWith p i s).faults = s.faults ∧ (performWith p i s).inputs = s.inputs ∧
      (performWith p i s).samples = s.samples := by
  rcases performWith_cases p i s with h | ⟨_, _, h | h⟩ <;> simp [h]

/-- ENCODE refuses only a reserved word, and only under `refuse`; DECODE never does. -/
theorem performWith_refused {p : Config.Params} {i : Instr}
    (h : i.wellFormed = true ∨ p.encHighNibble = .mask) (s : State) :
    (performWith p i s).refused = s.refused := by
  rcases h with hwf | hmask
  · obtain ⟨-, -, -, -, hrefused, -⟩ := performWith_wellFormed_fields hwf p s
    exact hrefused
  · cases i with
    | enc arg =>
      rcases encodeOp_cases p arg s with ⟨-, hrefuse, -⟩ | ⟨-, hr⟩
      · simp [hmask] at hrefuse
      · simp [performWith, hr]
    | dec c =>
      obtain ⟨-, -, -, -, hrefused, -⟩ := performWith_wellFormed_fields (i := .dec c) rfl p s
      exact hrefused

/-- Under `refuse` a reserved word sets the mark and does nothing else. -/
theorem performWith_reserved_of_refuse {p : Config.Params} {i : Instr} (hwf : i.wellFormed = false)
    (hp : p.encHighNibble = .refuse) (s : State) :
    performWith p i s = refuseRequest .encHighNibbleNonzero s := by
  cases i with
  | enc arg =>
    rcases encodeOp_cases p arg s with ⟨-, -, hr⟩ | ⟨hzero | hmask, -⟩
    · exact hr
    · simp [(highField_eq_zero_iff arg).1 hzero] at hwf
    · simp [hp] at hmask
  | dec c => cases hwf

/-- R98: a DoubleBitError is a nonzero syndrome without a parity mismatch. -/
theorem classify_eq_doubleBitError_iff :
    ∀ (s : Syndrome) (pm : Bool), classify s pm = .doubleBitError ↔ s ≠ 0#3 ∧ pm = false := by
  decide

/-- Only a DoubleBitError under `draw` counts a draw. -/
theorem performWith_draws {p : Config.Params} {i : Instr}
    (h : p.doubleFlip ≠ .draw ∨
      ∀ c, i = .dec c → syndrome c = 0#3 ∨ parityMismatch c = true) (s : State) :
    (performWith p i s).draws = s.draws := by
  cases i with
  | enc arg => rcases encodeOp_cases p arg s with ⟨-, -, hr⟩ | ⟨-, hr⟩ <;> simp [performWith, hr]
  | dec c =>
    rcases decodeOp_cases p c s with ⟨hdouble, hdraw, -⟩ | ⟨-, hr⟩
    · obtain ⟨hsyndrome, hparity⟩ := (classify_eq_doubleBitError_iff _ _).1 hdouble
      rcases h with hflip | hbyte
      · exact absurd hdraw hflip
      · simp [hsyndrome, hparity] at hbyte
    · simp [performWith, hr]

/-- Settles O32: clause by clause from what `performWith` can do under each setting. -/
theorem requestFrame : Obligations.RequestFrame := by
  intro p i s
  obtain ⟨hfaults, hinputs, hsamples⟩ := performWith_hostFields p i s
  refine ⟨hfaults, hinputs, hsamples, fun h => performWith_refused h s, fun hwf hp => ?_,
    fun h => performWith_draws h s, exec_eq_performWith i s⟩
  simp [performWith_reserved_of_refuse hwf hp]

/-! ### The response of a request -/

/-- Settles O34: both steps respond with what the common request alone fixes. -/
theorem responseIgnoresHistory : Obligations.ResponseIgnoresHistory := by
  intro s₁ s₂ t₁ t₂ hrst₁ hrst₂ hreq₁ hreq₂ hop harg hwf h₁ h₂
  have hsame : presentedRequest s₂ = presentedRequest s₁ := by
    rw [presentedRequest, ← hop, ← harg]
  rw [step_of_wellFormed hrst₁ hreq₁ hwf] at h₁
  rw [step_of_wellFormed hrst₂ hreq₂ (hsame ▸ hwf), hsame] at h₂
  cases h₁
  cases h₂
  simp

/-- Settles O35, for each of the four kinds of step. -/
theorem validExactlyAfterRequest : Obligations.ValidExactlyAfterRequest := by
  intro s t h
  rcases step_cases h with ⟨hrst, rfl⟩ | ⟨hrst, hreq, hwf, rfl⟩ | ⟨hrst, hreq, hwf, rfl⟩ |
    ⟨hrst, hreq, rfl⟩
  · simp [hrst]
  · rw [if_pos hwf]; simp [hrst, hreq]
  · rw [if_neg (Bool.eq_false_iff.1 hwf)]; simp [hrst, hreq]
  · simp [hrst, hreq]

/-! ### REFUSED and the fault list -/

/-- R57: the requests without meaning are the ENCODE words whose upper half is not 0. -/
theorem requestWord_wellFormed_eq_false_iff (op : Bool) (arg : Byte) :
    (decodeRequest (requestWord op arg)).wellFormed = false ↔
      op = false ∧ arg.extractLsb' 4 4 ≠ 0#4 := by
  cases op <;> simp [Instr.wellFormed]

/-- REFUSED after a step: it was set before, or the step presented a request without meaning. -/
theorem step_refused_iff {s t : State} (h : step s = .next t) :
    t.refused = true ↔ s.refused = true ∨ ((currentInput s).rst = false ∧
      (currentInput s).reqValid = true ∧ (presentedRequest s).wellFormed = false) := by
  rcases step_cases h with ⟨hrst, rfl⟩ | ⟨hrst, hreq, hwf, rfl⟩ | ⟨hrst, hreq, hwf, rfl⟩ |
    ⟨hrst, hreq, rfl⟩
  · simp [hrst]
  · rw [hwf]; simp
  · rw [hwf]; simp [hrst, hreq]
  · simp [hreq]

/-- Settles O36: from when a step leaves REFUSED set, and from what the refusing step does. -/
theorem refusedIsSticky : Obligations.RefusedIsSticky := by
  refine ⟨rfl, fun s t h => ⟨fun hs => (step_refused_iff h).2 (.inl hs), fun hs => ?_,
    fun hrst hreq hop harg => ?_⟩⟩
  · rw [step_refused_iff h, requestWord_wellFormed_eq_false_iff]
    simp [hs]
  · have hwf : (presentedRequest s).wellFormed = false :=
      (requestWord_wellFormed_eq_false_iff _ _).2 ⟨hop, harg⟩
    rw [step_of_reserved hrst hreq hwf] at h
    cases h
    simp

theorem isClean_eq_false_iff (s : State) :
    s.isClean = false ↔ s.refused = true ∨ s.faults ≠ [] := by
  cases hrefused : s.refused <;> simp [State.isClean, hrefused]

/-- No step clears REFUSED or shortens the fault list. -/
theorem step_keeps_unclean {s t : State} (hs : s.isClean = false) (h : step s = .next t) :
    t.isClean = false := by
  rw [isClean_eq_false_iff] at hs ⊢
  obtain ⟨-, hfaults, -⟩ := step_hostSide h
  rcases hs with hrefused | hrecorded
  · exact .inl ((step_refused_iff h).2 (.inl hrefused))
  · exact .inr (by simp [hfaults, hrecorded])

/-- Settles O40: what every step keeps, every run keeps. -/
theorem uncleanStaysUnclean : Obligations.UncleanStaysUnclean :=
  fun k s t h hs => runSteps_induct (fun _ _ => step_keeps_unclean) k s t hs h

/-! ### The host's reads -/

/-- One read gives the register's bits if it is asked for and written, and nothing otherwise. -/
theorem sampleReg_eq {w : Nat} (asked : Bool) (r : RspReg w) :
    sampleReg asked r = if asked && r.written then some r.value else none := by
  cases asked <;> simp [sampleReg, portValue]

/-- The fault of one read is there exactly if an unwritten register is read. -/
theorem readFaults_ne_nil_iff {w : Nat} (asked : Bool) (r : RspReg w) :
    readFaults asked r ≠ [] ↔ asked = true ∧ r.written = false := by
  simp [readFaults]

theorem faultsOf_ne_nil_iff (inp : StepInput) (s : State) :
    faultsOf inp s ≠ [] ↔ (inp.readData = true ∧ s.rspData.written = false) ∨
      (inp.readKind = true ∧ s.rspKind.written = false) := by
  rw [← readFaults_ne_nil_iff, ← readFaults_ne_nil_iff, faultsOf, ne_eq, List.append_eq_nil_iff,
    not_and_or]

/-- The spec's only fault (R128). -/
theorem Fault.eq_readUnwrittenResponse (f : Fault) : f = .readUnwrittenResponse := by
  cases f; rfl

/-- Settles O37: the written status from the kind of step, the reads and their faults from the host's
side, which every kind of step has. -/
theorem unwrittenReadRecordsFault : Obligations.UnwrittenReadRecordsFault := by
  refine ⟨rfl, rfl, fun s t h => ⟨fun hrst => ?_, fun hrst hreq hwf => ?_, ?_⟩⟩
  · rw [step_of_reset hrst] at h
    cases h
    simp
  · rw [step_of_wellFormed hrst hreq hwf] at h
    cases h
    simp
  · obtain ⟨hsamples, hfaults, -⟩ := step_hostSide h
    exact ⟨_, _, hsamples, hfaults, rfl, sampleReg_eq _ _, sampleReg_eq _ _,
      fun f _ => f.eq_readUnwrittenResponse, faultsOf_ne_nil_iff _ s⟩

/-- In the step after a response a host that reads all three ports sees it, and no fault is
recorded. -/
theorem step_samples_response {data : Byte} {kind : KindCode} {s u : State}
    (hvalid : (currentInput (respond data kind s)).readValid = true)
    (hdata : (currentInput (respond data kind s)).readData = true)
    (hkind : (currentInput (respond data kind s)).readKind = true)
    (h : step (respond data kind s) = .next u) :
    u.samples = s.samples ++ [{ valid := some true, data := some data, kind := some kind }] ∧
      u.faults = s.faults := by
  obtain ⟨hsamples, hfaults, -⟩ := step_hostSide h
  rw [hsamples, hfaults]
  simp [sampleOf, faultsOf, sampleReg, readFaults, hvalid, hdata, hkind]

/-- Settles O38: the first step leaves the response on the ports, and the next one samples it. -/
theorem responseSeenInNextStep : Obligations.ResponseSeenInNextStep := by
  intro s t u hrst hreq hwf hst hvalid hdata hkind htu
  rw [step_of_wellFormed hrst hreq hwf] at hst
  cases hst
  obtain ⟨hsamples, hfaults⟩ := step_samples_response hvalid hdata hkind htu
  refine ⟨hsamples.trans ?_, hfaults⟩
  rw [presentedRequest, decodeRequest_requestWord]
  cases (currentInput s).reqOp <;> rfl

/-! ### Runs of idle steps -/

/-- If the next `k + 1` inputs are idle, so is the next step, also past the end of the list; and so
are the `k` inputs after it. -/
theorem idle_take_succ {s : State} {k : Nat}
    (h : ∀ inp ∈ s.inputs.take (k + 1), inp.rst = false ∧ inp.reqValid = false) :
    ((currentInput s).rst = false ∧ (currentInput s).reqValid = false) ∧
      ∀ inp ∈ s.inputs.tail.take k, inp.rst = false ∧ inp.reqValid = false := by
  unfold currentInput
  cases hin : s.inputs with
  | nil => simp [idleInput]
  | cons inp rest => simpa [hin] using h

/-- Settles O39, by induction on the number of steps, each of them idle. -/
theorem responseHeldOverIdleSteps : Obligations.ResponseHeldOverIdleSteps := by
  intro k
  induction k with
  | zero => exact fun s _ => ⟨s, rfl, by simp⟩
  | succ k ih =>
    intro s hidle
    obtain ⟨⟨hrst, hreq⟩, hrest⟩ := idle_take_succ hidle
    have hstep := step_of_idle hrst hreq
    obtain ⟨t, hrun, hdata, hkind, hrefused, hdraws, hinputs, hvalid⟩ :=
      ih (idleOp (hostSide (currentInput s) s)) hrest
    refine ⟨t, (runSteps_succ hstep k).trans hrun, hdata, hkind, hrefused, hdraws, ?_, fun _ => ?_⟩
    · simp [hinputs]
    · rcases k.eq_zero_or_pos with rfl | hk
      · cases hrun
        rfl
      · exact hvalid hk

end Sys2Proof.Machine
end

section
/-! PROOFS. Encoding: requests and their words, the rows of the opcode table, the reserved ENCODE
words, and the codec under other bit layouts (spec/30_encoding.md R46 to R59, spec/40_encoder.md
R75 and R76, spec/42_position_table.md R92, spec/44_decode.md R117). -/

namespace Sys2Proof.Machine

/-! ### Requests and their words -/

theorem encodeRequest_decodeRequest (w : RequestWord) : encodeRequest (decodeRequest w) = w := by
  rw [← requestWord_fields w, decodeRequest_requestWord]
  cases opField w <;> rfl

theorem decodeRequest_eq_iff (w : RequestWord) (i : Instr) :
    decodeRequest w = i ↔ w = encodeRequest i := by
  constructor
  · rintro rfl
    exact (encodeRequest_decodeRequest w).symm
  · rintro rfl
    exact decodeRequest_encodeRequest i

theorem decodeWord_eq_ok_iff (w : Nat) (i : Instr) :
    decodeWord w = .ok i ↔ w = (encodeRequest i).toNat := by
  rcases Nat.lt_or_ge w 512 with hfits | hwide
  · rw [decodeWord_of_fits hfits, Except.ok.injEq, decodeRequest_eq_iff, ← BitVec.toNat_inj,
      BitVec.toNat_ofNat, Nat.mod_eq_of_lt hfits]
  · have hne : w ≠ (encodeRequest i).toNat := ((encodeRequest i).isLt.trans_le hwide).ne'
    simp [decodeWord_of_too_wide hwide, hne]

theorem decodeWord_eq_error_iff (w : Nat) : decodeWord w = .error (.wordTooWide w) ↔ 512 ≤ w := by
  refine ⟨fun h => ?_, decodeWord_of_too_wide⟩
  by_contra hfits
  simp [decodeWord_of_fits (Nat.not_le.1 hfits)] at h

/-- Settles O1: the decoder and the encoder are inverse to each other on 9-bit words, and a word of
any width is either read as its 9 bits or too wide. -/
theorem requestWordRoundTrip : Obligations.RequestWordRoundTrip :=
  ⟨decodeRequest_encodeRequest, encodeRequest_decodeRequest, decodeWord_eq_ok_iff,
    decodeWord_eq_error_iff⟩

/-- Settles O3: each word is the word of its request, and 513 does not fit 9 bits. -/
theorem writtenOutWordsDecode : Obligations.WrittenOutWordsDecode := by
  unfold Obligations.WrittenOutWordsDecode
  simp only [decodeRequest_eq_iff]
  exact ⟨rfl, rfl, rfl, rfl, rfl, decodeWord_of_too_wide (by decide)⟩

/-! ### Counting words by their requests -/

@[simp] theorem fintypeCard_bitVec (w : Nat) : Fintype.card (BitVec w) = 2 ^ w :=
  FinEnum.card_eq_fintypeCard.symm

/-- The words with a property are as many as the values `α` that number their requests. -/
theorem countP_words_eq_card {α : Type} [Fintype α] {request : α → Instr}
    (hinj : Function.Injective request) {p : RequestWord → Bool}
    (hp : ∀ i, p (encodeRequest i) = true ↔ ∃ a, i = request a) :
    (List.finRange 512).countP (fun w => p (BitVec.ofFin w)) = Fintype.card α := by
  have hword : Function.Injective fun a => (encodeRequest (request a)).toFin := fun a b h =>
    hinj (Function.LeftInverse.injective decodeRequest_encodeRequest (BitVec.toFin_inj.1 h))
  have himage : Finset.univ.filter (fun w : Fin 512 => p (BitVec.ofFin w) = true) =
      Finset.univ.image fun a => (encodeRequest (request a)).toFin := by
    ext w
    have hpw := hp (decodeRequest (BitVec.ofFin w))
    rw [encodeRequest_decodeRequest] at hpw
    simp only [Finset.mem_filter_univ, Finset.mem_image, Finset.mem_univ, true_and, hpw,
      decodeRequest_eq_iff]
    exact exists_congr fun a => ⟨fun h => by rw [← h], fun h => by rw [← h]⟩
  rw [← Finset.card_univ, ← Finset.card_image_of_injective _ hword, ← himage]
  simp [Finset.card, Finset.filter, Fin.univ_def, List.countP_eq_length_filter]

/-! ### The rows of the opcode table -/

/-- A field ARG is its two halves. -/
@[simp] theorem highField_append_nibbleOperand :
    ∀ arg : Byte, highField arg ++ nibbleOperand arg = arg := by decide

/-- R51: ENCODE words that differ in a half of ARG are different requests. -/
theorem enc_append_inj {h₁ h₂ n₁ n₂ : Nibble} (h : Instr.enc (h₁ ++ n₁) = .enc (h₂ ++ n₂)) :
    h₁ = h₂ ∧ n₁ = n₂ := by
  have harg := Instr.enc.inj h
  exact ⟨by simpa using congrArg highField harg, by simpa using congrArg nibbleOperand harg⟩

/-- R50, R51: row ENC of the opcode table holds the words of ENCODE of a nibble. -/
theorem encodeRequest_matches_encRow_iff (i : Instr) :
    encodeRequest i &&& 0x1F0#9 = 0x000#9 ↔ ∃ n : Nibble, i = .enc (0#4 ++ n) := by
  have hrow : ∀ (op : Bool) (arg : Byte),
      requestWord op arg &&& 0x1F0#9 = 0x000#9 ↔ op = false ∧ highField arg = 0#4 := by decide
  cases i with
  | enc arg =>
    rw [encodeRequest, hrow]
    constructor
    · rintro ⟨-, hhigh⟩
      exact ⟨nibbleOperand arg, by rw [← hhigh, highField_append_nibbleOperand]⟩
    · rintro ⟨n, hn⟩
      exact ⟨rfl, by rw [Instr.enc.inj hn, highField_append]⟩
  | dec c => simp [encodeRequest, hrow]

/-- R50, R52: row DEC holds the words of DECODE of a byte. -/
theorem encodeRequest_matches_decRow_iff (i : Instr) :
    encodeRequest i &&& 0x100#9 = 0x100#9 ↔ ∃ c : Byte, i = .dec c := by
  have hrow : ∀ (op : Bool) (arg : Byte),
      requestWord op arg &&& 0x100#9 = 0x100#9 ↔ op = true := by decide
  cases i <;> simp [encodeRequest, hrow]

theorem encodeRequest_enc_nibble : ∀ n : Nibble, encodeRequest (.enc (0#4 ++ n)) = 0#5 ++ n := by
  decide

theorem encodeRequest_dec (c : Byte) : encodeRequest (.dec c) = 1#1 ++ c := rfl

/-- Settles O2: each row holds the words of its requests, which number its words. -/
theorem opcodeRowsSelectOperations : Obligations.OpcodeRowsSelectOperations := by
  refine ⟨fun w => ?_, fun w => ?_, ?_, ?_⟩
  · have hrow := encodeRequest_matches_encRow_iff (decodeRequest w)
    rw [encodeRequest_decodeRequest] at hrow
    simp only [hrow, ← encodeRequest_enc_nibble, ← decodeRequest_eq_iff, and_self]
  · have hrow := encodeRequest_matches_decRow_iff (decodeRequest w)
    rw [encodeRequest_decodeRequest] at hrow
    simp only [hrow, ← encodeRequest_dec, ← decodeRequest_eq_iff, and_self]
  · rw [countP_words_eq_card (request := fun n : Nibble => .enc (0#4 ++ n))
      (p := fun w => w &&& 0x1F0#9 == 0x000#9) (fun _ _ h => (enc_append_inj h).2)
      (by simp only [beq_iff_eq, encodeRequest_matches_encRow_iff, implies_true]),
      fintypeCard_bitVec]
    rfl
  · rw [countP_words_eq_card (request := Instr.dec)
      (p := fun w => w &&& 0x100#9 == 0x100#9) (fun _ _ => Instr.dec.inj)
      (by simp only [beq_iff_eq, encodeRequest_matches_decRow_iff, implies_true]),
      fintypeCard_bitVec]
    rfl

/-! ### The reserved ENCODE words -/

/-- R57: the requests without meaning are ENCODE of two halves, the upper one not 0. -/
theorem wellFormed_eq_false_iff (i : Instr) : i.wellFormed = false ↔
    ∃ a : {high : Nibble // high ≠ 0#4} × Nibble, i = .enc (a.1.val ++ a.2) := by
  cases i with
  | enc arg =>
    rw [← Bool.not_eq_true, ← highField_eq_zero_iff]
    constructor
    · intro hhigh
      exact ⟨(⟨highField arg, hhigh⟩, nibbleOperand arg), by rw [highField_append_nibbleOperand]⟩
    · rintro ⟨⟨⟨high, hhigh⟩, n⟩, h⟩
      rw [Instr.enc.inj h, highField_append]
      exact hhigh
  | dec c => simp [Instr.wellFormed]

theorem enc_reserved {high : Nibble} (h : high ≠ 0#4) (n : Nibble) :
    (Instr.enc (high ++ n)).wellFormed = false :=
  (wellFormed_eq_false_iff _).2 ⟨(⟨high, h⟩, n), rfl⟩

/-- Under `mask` ENCODE does not look at the upper half of its field. -/
theorem encodeOp_of_mask {p : Config.Params} (hp : p.encHighNibble = .mask) (arg : Byte)
    (s : State) :
    encodeOp p arg s = respond (encodeNibble (nibbleOperand arg)) 0b00#2 s := by
  rcases encodeOp_cases p arg s with ⟨-, hrefuse, -⟩ | ⟨-, hr⟩
  · simp [hp] at hrefuse
  · exact hr

/-- Settles O12: the words without meaning are numbered by 15 upper halves and 16 nibbles; `refuse`
only sets the mark, and `mask` encodes the low nibble alone. -/
theorem reservedEncodeWords : Obligations.ReservedEncodeWords := by
  refine ⟨fun w => ?_, ?_, fun s high n hhigh => ⟨?_, fun d => ⟨?_, ?_⟩⟩⟩
  · rw [← requestWord_fields w, requestWord_wellFormed_eq_false_iff, requestWord_fields]
    simp [opField, argField]
  · rw [countP_words_eq_card
      (request := fun a : {high : Nibble // high ≠ 0#4} × Nibble => .enc (a.1.val ++ a.2))
      (p := fun w => !(decodeRequest w).wellFormed) ?_ ?_]
    · simp [Fintype.card_subtype_compl]
    · intro a b h
      obtain ⟨hhigh, hlow⟩ := enc_append_inj h
      exact Prod.ext (Subtype.ext hhigh) hlow
    · simp only [decodeRequest_encodeRequest, Bool.not_eq_true', wellFormed_eq_false_iff,
        implies_true]
  · rw [exec_eq_performWith, performWith_reserved (enc_reserved hhigh n)]
    rfl
  · exact performWith_reserved_of_refuse (enc_reserved hhigh n) rfl s
  · simp [performWith, encodeOp_of_mask]

/-! ### This hardware's codec on a corrupted codeword -/

/-- R8: the parity is an XOR of all bits, so it is linear. -/
theorem parity_xor (a b : Byte) : parity (a ^^^ b) = (parity a ^^ parity b) := by
  have : Std.Commutative Bool.xor := ⟨Bool.xor_comm⟩
  simp only [parity, BitVec.getLsbD_xor]
  ac_rfl

theorem parity_xor_and (a b m : Byte) :
    parity ((a ^^^ b) &&& m) = (parity (a &&& m) ^^ parity (b &&& m)) := by
  have hmask : (a ^^^ b) &&& m = (a &&& m) ^^^ (b &&& m) := by
    ext i
    simp [Bool.and_xor_distrib_right]
  rw [hmask, parity_xor]

/-- R83: the syndrome is the product with the parity-check matrix. -/
theorem syndromeByMatrix_eq_syndrome : ∀ c : Byte, syndromeByMatrix c = syndrome c := by decide

/-- R82: the mismatch is the parity of the whole codeword. -/
theorem parityMismatch_eq_parity : ∀ c : Byte, parityMismatch c = parity c := by decide

/-- R85: each row of the matrix product is a parity, so the syndrome is linear. -/
theorem syndrome_xor (a b : Byte) : syndrome (a ^^^ b) = syndrome a ^^^ syndrome b := by
  simp only [← syndromeByMatrix_eq_syndrome, syndromeByMatrix, parity_xor_and,
    ← BitVec.ofBool_xor_ofBool, ← BitVec.xor_append]

theorem parityMismatch_xor (a b : Byte) :
    parityMismatch (a ^^^ b) = (parityMismatch a ^^ parityMismatch b) := by
  simp only [parityMismatch_eq_parity, parity_xor]

@[simp] theorem extractNibble_encodeNibble : ∀ n : Nibble, extractNibble (encodeNibble n) = n := by
  decide

theorem extractNibble_xor (a b : Byte) :
    extractNibble (a ^^^ b) = extractNibble a ^^^ extractNibble b :=
  BitVec.extractLsb'_xor

/-- R85: a corrupted codeword decodes as its error does, with the nibble off by what the error alone
decodes to. -/
theorem decodeByte_encodeNibble_xor (d : Config.DoubleFlip) (n : Nibble) (e : Byte) :
    decodeByte d (encodeNibble n ^^^ e) = (n ^^^ (decodeByte d e).1, (decodeByte d e).2) := by
  obtain ⟨hsyndrome, hparity⟩ := isCodeword_encodeNibble n
  simp [decodeByte, classifyCorrect, syndrome_xor, parityMismatch_xor, hsyndrome, hparity,
    extractNibble_xor, BitVec.xor_assoc]

/-- R117: the zero word is a codeword. -/
theorem decodeByte_zero (d : Config.DoubleFlip) : decodeByte d 0#8 = (0#4, .noError) := by
  cases d <;> decide

/-- R105, R117: a single flipped bit decodes to the nibble 0 it corrupts, under every setting. -/
theorem decodeByte_oneHot (d : Config.DoubleFlip) : ∀ i : Fin 8,
    decodeByte d (oneHot i) = (0#4, if i = 0 then .parityBitError else .singleBitError) := by
  cases d <;> decide

/-- R105, R117: the kind of two flipped bits. -/
theorem decodeByte_two_oneHot (d : Config.DoubleFlip) : ∀ i j : Fin 8, i ≠ j →
    (decodeByte d (oneHot i ^^^ oneHot j)).2 = .doubleBitError := by
  simp only [decodeByte_kind]
  decide

/-! ### The positions of a layout -/

/-- The position that the layout `l` gives to the logical bit that the canonical layout has at
position `i` (R46). -/
def placeOf (l : Config.BitLayout) : Fin 8 → Fin 8
  | 0 => l.p
  | 1 => l.h0
  | 2 => l.h1
  | 3 => l.h2
  | 4 => l.d0
  | 5 => l.d1
  | 6 => l.d2
  | 7 => l.d3

theorem placeOf_canonicalLayout : ∀ i : Fin 8, placeOf canonicalLayout i = i := by decide

theorem canonicalLayout_isBijection : canonicalLayout.IsBijection := by decide

theorem placeOf_bijective {l : Config.BitLayout} (h : l.IsBijection) :
    Function.Bijective (placeOf l) := by
  have hnodup : (List.ofFn (placeOf l)).Nodup := List.nodup_reverse.1 h
  exact (List.nodup_ofFn.1 hnodup).bijective_of_finite

theorem placeOf_inj {l : Config.BitLayout} (h : l.IsBijection) {i j : Fin 8} :
    placeOf l i = placeOf l j ↔ i = j :=
  (placeOf_bijective h).injective.eq_iff

theorem placeOf_beq {l : Config.BitLayout} (h : l.IsBijection) (i j : Fin 8) :
    (placeOf l i == placeOf l j) = (i == j) := by
  rw [Bool.eq_iff_iff, beq_iff_eq, beq_iff_eq, placeOf_inj h]

theorem placeOf_eq_p_iff {l : Config.BitLayout} (h : l.IsBijection) {i : Fin 8} :
    placeOf l i = l.p ↔ i = 0 :=
  placeOf_inj h (j := 0)

/-! ### The bits of a codeword -/

/-- Two bytes are equal if they have equal bits. -/
theorem byte_ext {a b : Byte} (h : ∀ i : Fin 8, a.getLsbD i = b.getLsbD i) : a = b :=
  BitVec.eq_of_getLsbD_eq fun i hi => h ⟨i, hi⟩

theorem getLsbD_oneHot : ∀ i j : Fin 8, (oneHot i).getLsbD j = (i == j) := by decide

theorem getLsbD_bitAt (b : Bool) (i j : Fin 8) : (bitAt b i).getLsbD j = (b && i == j) := by
  cases b
  · exact BitVec.getLsbD_zero
  · exact (getLsbD_oneHot i j).trans (Bool.true_and _).symm

/-- Under a bijective layout each logical bit is placed where no other one is. -/
theorem getLsbD_placeBits {l : Config.BitLayout} (h : l.IsBijection) (b : LogicalWord)
    (i : Fin 8) :
    (placeBits l b).getLsbD (placeOf l i) = (placeBits canonicalLayout b).getLsbD i := by
  simp only [placeBits, BitVec.getLsbD_or, getLsbD_bitAt, canonicalLayout, ← placeOf_beq h _ i]
  rfl

/-! ### Renaming the positions to the canonical ones -/

/-- The codeword of the canonical layout that holds the logical bits which `c` holds under `l`. -/
def canonicalWord (l : Config.BitLayout) (c : Byte) : Byte :=
  placeBits canonicalLayout (readBits l c)

theorem getLsbD_canonicalWord (l : Config.BitLayout) (c : Byte) (i : Fin 8) :
    (canonicalWord l c).getLsbD i = c.getLsbD (placeOf l i) := by
  simp only [canonicalWord, placeBits, BitVec.getLsbD_or, getLsbD_bitAt]
  fin_cases i <;> simp [canonicalLayout, readBits, placeOf]

theorem readBits_canonicalWord (l : Config.BitLayout) (c : Byte) :
    readBits canonicalLayout (canonicalWord l c) = readBits l c := by
  simp only [readBits, canonicalLayout, getLsbD_canonicalWord]
  rfl

theorem canonicalWord_canonicalLayout (c : Byte) : canonicalWord canonicalLayout c = c :=
  byte_ext fun i => by rw [getLsbD_canonicalWord, placeOf_canonicalLayout]

theorem canonicalWord_zero (l : Config.BitLayout) : canonicalWord l 0#8 = 0#8 :=
  byte_ext fun i => by rw [getLsbD_canonicalWord, BitVec.getLsbD_zero, BitVec.getLsbD_zero]

theorem canonicalWord_xor (l : Config.BitLayout) (a b : Byte) :
    canonicalWord l (a ^^^ b) = canonicalWord l a ^^^ canonicalWord l b :=
  byte_ext fun i => by simp only [getLsbD_canonicalWord, BitVec.getLsbD_xor]

theorem canonicalWord_oneHot {l : Config.BitLayout} (h : l.IsBijection) (i : Fin 8) :
    canonicalWord l (oneHot (placeOf l i)) = oneHot i :=
  byte_ext fun j => by rw [getLsbD_canonicalWord, getLsbD_oneHot, getLsbD_oneHot, placeOf_beq h]

/-! ### The codec at the canonical layout -/

theorem encodeNibbleIn_canonicalLayout :
    ∀ n : Nibble, encodeNibbleIn canonicalLayout n = encodeNibble n := by decide

theorem syndromeIn_canonicalLayout (c : Byte) : syndromeIn canonicalLayout c = syndrome c := rfl

theorem parityMismatchIn_canonicalLayout (c : Byte) :
    parityMismatchIn canonicalLayout c = parityMismatch c := rfl

theorem extractNibbleIn_canonicalLayout :
    ∀ c : Byte, extractNibbleIn canonicalLayout c = extractNibble c := by decide

/-! ### The codec at any layout is this hardware's after the renaming -/

theorem canonicalWord_encodeNibbleIn {l : Config.BitLayout} (h : l.IsBijection) (n : Nibble) :
    canonicalWord l (encodeNibbleIn l n) = encodeNibble n := by
  rw [← encodeNibbleIn_canonicalLayout]
  exact byte_ext fun i => by
    rw [getLsbD_canonicalWord, encodeNibbleIn, getLsbD_placeBits h, encodeNibbleIn]

theorem syndromeIn_eq (l : Config.BitLayout) (c : Byte) :
    syndromeIn l c = syndrome (canonicalWord l c) := by
  rw [← syndromeIn_canonicalLayout, syndromeIn, syndromeIn, readBits_canonicalWord]

theorem parityMismatchIn_eq (l : Config.BitLayout) (c : Byte) :
    parityMismatchIn l c = parityMismatch (canonicalWord l c) := by
  rw [← parityMismatchIn_canonicalLayout, parityMismatchIn, parityMismatchIn,
    readBits_canonicalWord]

theorem extractNibbleIn_eq (l : Config.BitLayout) (c : Byte) :
    extractNibbleIn l c = extractNibble (canonicalWord l c) := by
  rw [← extractNibbleIn_canonicalLayout, extractNibbleIn, extractNibbleIn, readBits_canonicalWord]

theorem syndromeIn_oneHot_placeOf {l : Config.BitLayout} (h : l.IsBijection) (i : Fin 8) :
    syndromeIn l (oneHot (placeOf l i)) = syndrome (oneHot i) := by
  rw [syndromeIn_eq, canonicalWord_oneHot h]

/-! ### The regenerated table -/

/-- R93: the table holds for each nonzero syndrome the one position, the parity bit's left out,
whose column of the parity-check matrix it is. -/
theorem eq_positionOf_iff : ∀ (s : Syndrome) (i : Fin 8), s ≠ 0#3 →
    (i = (positionOf s).toFin ↔ i ≠ 0 ∧ syndrome (oneHot i) = s) := by decide

theorem syndrome_oneHot_ne_zero : ∀ i : Fin 8, i ≠ 0 → syndrome (oneHot i) ≠ 0#3 := by decide

/-- A search finds the only element that passes the test. -/
theorem find?_finRange_eq_some {m : Nat} {p : Fin m → Bool} {a : Fin m}
    (h : ∀ j, p j = true ↔ j = a) : (List.finRange m).find? p = some a := by
  cases hfind : (List.finRange m).find? p with
  | none => exact absurd ((h a).2 rfl) (List.find?_eq_none.1 hfind a (List.mem_finRange a))
  | some j => rw [(h j).1 (List.find?_some hfind)]

/-- R92: the regenerated table is T, its positions renamed. -/
theorem positionOfIn_eq {l : Config.BitLayout} (h : l.IsBijection) {s : Syndrome} (hs : s ≠ 0#3) :
    positionOfIn l s = placeOf l (positionOf s).toFin := by
  have hcolumn : ∀ j : Fin 8,
      (j ≠ l.p && syndromeIn l (oneHot j) == s) = true ↔ j = placeOf l (positionOf s).toFin := by
    intro j
    obtain ⟨i, rfl⟩ := (placeOf_bijective h).surjective j
    simp [syndromeIn_oneHot_placeOf h, placeOf_eq_p_iff h, placeOf_inj h, eq_positionOf_iff s i hs]
  rw [positionOfIn, find?_finRange_eq_some hcolumn, Option.getD_some]

theorem flipPositionIn_eq {l : Config.BitLayout} (h : l.IsBijection) (s : Syndrome) :
    flipPositionIn l s = placeOf l (flipPosition s).toFin := by
  by_cases hs : s = 0#3
  · rw [flipPositionIn, flipPosition, if_pos hs, if_pos hs]
    rfl
  · rw [flipPositionIn, flipPosition, if_neg hs, if_neg hs, positionOfIn_eq h hs]

/-- R92, R93: the regenerated table takes the column of each position back to the position. -/
theorem positionOfIn_syndromeIn {l : Config.BitLayout} (h : l.IsBijection) {j : Fin 8}
    (hj : j ≠ l.p) : positionOfIn l (syndromeIn l (oneHot j)) = j := by
  obtain ⟨i, rfl⟩ := (placeOf_bijective h).surjective j
  have hi : i ≠ 0 := mt (placeOf_eq_p_iff h).2 hj
  have hs := syndrome_oneHot_ne_zero i hi
  rw [syndromeIn_oneHot_placeOf h, positionOfIn_eq h hs, placeOf_inj h]
  exact ((eq_positionOf_iff _ i hs).2 ⟨hi, rfl⟩).symm

/-- R92, R93: the position in the regenerated table has the syndrome as its column. -/
theorem syndromeIn_positionOfIn {l : Config.BitLayout} (h : l.IsBijection) {s : Syndrome}
    (hs : s ≠ 0#3) : syndromeIn l (oneHot (positionOfIn l s)) = s := by
  obtain ⟨-, hcolumn⟩ := (eq_positionOf_iff s _ hs).1 rfl
  rw [positionOfIn_eq h hs, syndromeIn_oneHot_placeOf h, hcolumn]

/-! ### Decoding under any layout -/

/-- R47: decoding under a bijective layout is this hardware's decoding of the renamed codeword; the
flipped position is renamed with it. -/
theorem decodeByteIn_eq {l : Config.BitLayout} (h : l.IsBijection) (d : Config.DoubleFlip)
    (c : Byte) : decodeByteIn l d c = decodeByte d (canonicalWord l c) := by
  have hmask : ∀ (s : Syndrome) (pm : Bool), canonicalWord l
      (if flipEnable d s pm then oneHot (flipPositionIn l s) else 0#8) = flipMask d s pm := by
    intro s pm
    rw [flipMask, flipPositionIn_eq h]
    split
    · exact canonicalWord_oneHot h _
    · exact canonicalWord_zero l
  simp only [decodeByteIn, decodeByte, classifyCorrect, extractNibbleIn_eq, canonicalWord_xor,
    syndromeIn_eq, parityMismatchIn_eq, hmask]

/-- R85 under a bijective layout: a corrupted codeword decodes as its renamed error does. -/
theorem decodeByteIn_encodeNibbleIn_xor {l : Config.BitLayout} (h : l.IsBijection)
    (d : Config.DoubleFlip) (n : Nibble) (e : Byte) :
    decodeByteIn l d (encodeNibbleIn l n ^^^ e) =
      (n ^^^ (decodeByte d (canonicalWord l e)).1, (decodeByte d (canonicalWord l e)).2) := by
  rw [decodeByteIn_eq h, canonicalWord_xor, canonicalWord_encodeNibbleIn h,
    decodeByte_encodeNibble_xor]

/-- Settles O45: the layout-generic functions read the canonical layout as the hardware's own do, and
the canonical codeword needs no renaming. -/
theorem canonicalLayoutIsThisCodec : Obligations.CanonicalLayoutIsThisCodec := by
  refine ⟨encodeNibbleIn_canonicalLayout,
    fun c => ⟨syndromeIn_canonicalLayout c, parityMismatchIn_canonicalLayout c⟩, by decide,
    fun d c => ?_, canonicalLayout_isBijection⟩
  rw [decodeByteIn_eq canonicalLayout_isBijection, canonicalWord_canonicalLayout]

/-- Settles O46: every position is the place of a canonical one, and the errors of no, one and two
bits are renamed to such errors, which this hardware decodes as stated. -/
theorem everyBijectiveLayoutIsSecded : Obligations.EveryBijectiveLayoutIsSecded := by
  intro l h d n
  have hplaces := (placeOf_bijective h).surjective
  refine ⟨?_, hplaces.forall.2 fun i => ?_, hplaces.forall₂.2 fun i j hij => ?_,
    fun _ => positionOfIn_syndromeIn h, fun _ => syndromeIn_positionOfIn h⟩
  · have hnone := decodeByteIn_encodeNibbleIn_xor h d n 0#8
    simpa [canonicalWord_zero, decodeByte_zero] using hnone
  · rw [decodeByteIn_encodeNibbleIn_xor h, canonicalWord_oneHot h, decodeByte_oneHot]
    simp [placeOf_eq_p_iff h]
  · rw [BitVec.xor_assoc, decodeByteIn_encodeNibbleIn_xor h, canonicalWord_xor,
      canonicalWord_oneHot h, canonicalWord_oneHot h]
    exact decodeByte_two_oneHot d i j (ne_of_apply_ne _ hij)

end Sys2Proof.Machine
end

section
/-! PROOFS. Encoder: the bits of a codeword, the response of ENCODE, linearity, the generator matrix,
and the codeword table with its weights (spec/40_encoder.md R66 to R75). -/

namespace Sys2Proof.Machine

/-! ### The bits of a codeword -/

/-- R70: the four check bits stand below the nibble in the order h2, h1, h0, p. -/
theorem getLsbD_byteOfBits_low (b7 b6 b5 b4 b3 b2 b1 b0 : Bool) :
    (byteOfBits b7 b6 b5 b4 b3 b2 b1 b0).getLsbD 3 = b3 ∧
      (byteOfBits b7 b6 b5 b4 b3 b2 b1 b0).getLsbD 2 = b2 ∧
      (byteOfBits b7 b6 b5 b4 b3 b2 b1 b0).getLsbD 1 = b1 ∧
      (byteOfBits b7 b6 b5 b4 b3 b2 b1 b0).getLsbD 0 = b0 := by
  simp only [byteOfBits, BitVec.getLsbD_append]
  simp

theorem encodeNibble_checkBits (n : Nibble) :
    (encodeNibble n).getLsbD 3 = hamming2 n ∧ (encodeNibble n).getLsbD 2 = hamming1 n ∧
      (encodeNibble n).getLsbD 1 = hamming0 n ∧ (encodeNibble n).getLsbD 0 = overallParity n :=
  getLsbD_byteOfBits_low ..

/-! ### ENCODE of a nibble -/

theorem enc_nibble_wellFormed (n : Nibble) : (Instr.enc (0#4 ++ n)).wellFormed = true :=
  (highField_eq_zero_iff _).1 (highField_append 0#4 n)

/-- R75: ENCODE of a nibble responds with its codeword and NoError, under every setting. -/
theorem performWith_enc_nibble (p : Config.Params) (n : Nibble) (s : State) :
    performWith p (.enc (0#4 ++ n)) s = respond (encodeNibble n) 0b00#2 s := by
  rw [performWith, encodeOp_wellFormed (enc_nibble_wellFormed n), nibbleOperand_append]

/-- Settles O11: ENCODE responds with the codeword of its nibble, whose upper half is the nibble and
whose check bits are those of R67 and R68. -/
theorem encodeRespondsWithCodeword : Obligations.EncodeRespondsWithCodeword := by
  intro s n
  obtain ⟨h2, h1, h0, hp⟩ := encodeNibble_checkBits n
  refine ⟨encodeNibble n, ?_, fun p => performWith_enc_nibble p n s, extractNibble_encodeNibble n,
    h2, h1, h0, ?_⟩
  · rw [exec_eq_performWith, performWith_enc_nibble]
    rfl
  · rw [hp, h2, h1, h0, overallParity]

/-! ### Linearity -/

theorem byteOfBits_xor (a7 a6 a5 a4 a3 a2 a1 a0 b7 b6 b5 b4 b3 b2 b1 b0 : Bool) :
    byteOfBits a7 a6 a5 a4 a3 a2 a1 a0 ^^^ byteOfBits b7 b6 b5 b4 b3 b2 b1 b0 =
      byteOfBits (a7 ^^ b7) (a6 ^^ b6) (a5 ^^ b5) (a4 ^^ b4) (a3 ^^ b3) (a2 ^^ b2) (a1 ^^ b1)
        (a0 ^^ b0) := by
  simp only [byteOfBits, ← BitVec.ofBool_xor_ofBool, ← BitVec.xor_append]

/-- Each Hamming bit and the overall parity bit is an XOR of bits of the nibble, so it is linear. -/
theorem checkBits_xor (a b : Nibble) :
    hamming2 (a ^^^ b) = (hamming2 a ^^ hamming2 b) ∧
      hamming1 (a ^^^ b) = (hamming1 a ^^ hamming1 b) ∧
      hamming0 (a ^^^ b) = (hamming0 a ^^ hamming0 b) ∧
      overallParity (a ^^^ b) = (overallParity a ^^ overallParity b) := by
  have : Std.Commutative Bool.xor := ⟨Bool.xor_comm⟩
  simp only [overallParity, hamming2, hamming1, hamming0, BitVec.getLsbD_xor]
  refine ⟨?_, ?_, ?_, ?_⟩ <;> ac_rfl

theorem encodeNibble_xor (a b : Nibble) :
    encodeNibble (a ^^^ b) = encodeNibble a ^^^ encodeNibble b := by
  obtain ⟨h2, h1, h0, hp⟩ := checkBits_xor a b
  simp only [encodeNibble, byteOfBits_xor, h2, h1, h0, hp, BitVec.getLsbD_xor]

theorem encodeNibble_zero : encodeNibble 0#4 = 0#8 := rfl

/-- Settles O15: every bit of a codeword is an XOR of bits of the nibble. -/
theorem encoderIsLinear : Obligations.EncoderIsLinear :=
  ⟨fun a b => (encodeNibble_xor a b).symm, encodeNibble_zero⟩

/-! ### The generator matrix -/

theorem encodeNibble_shiftLeft : ∀ i : Fin 4, encodeNibble (1#4 <<< i.val) = generatorRow i := by
  decide

/-- A nibble is the XOR of the nibbles `1 << i` of its set bits. -/
theorem nibble_eq_xor_bits : ∀ n : Nibble,
    n = (if n.getLsbD 0 then 1#4 <<< 0 else 0#4) ^^^ (if n.getLsbD 1 then 1#4 <<< 1 else 0#4) ^^^
      (if n.getLsbD 2 then 1#4 <<< 2 else 0#4) ^^^ (if n.getLsbD 3 then 1#4 <<< 3 else 0#4) := by
  decide

/-- R71, from linearity: a codeword is the XOR of the rows that the nibble selects. -/
theorem encodeNibble_eq_xor_rows (n : Nibble) :
    encodeNibble n =
      (if n.getLsbD 0 then generatorRow 0 else 0#8) ^^^
        (if n.getLsbD 1 then generatorRow 1 else 0#8) ^^^
        (if n.getLsbD 2 then generatorRow 2 else 0#8) ^^^
        (if n.getLsbD 3 then generatorRow 3 else 0#8) := by
  conv_lhs => rw [nibble_eq_xor_bits n]
  simp only [encodeNibble_xor, apply_ite encodeNibble, encodeNibble_zero,
    ← encodeNibble_shiftLeft]
  rfl

theorem encodeByMatrix_eq_encodeNibble (n : Nibble) : encodeByMatrix n = encodeNibble n := by
  rw [encodeNibble_eq_xor_rows]
  simp [encodeByMatrix, List.finRange_succ]

/-- Settles O13: the rows are codewords, so by linearity every codeword is an XOR of rows; the
columns are read off the four rows. -/
theorem encodingIsGeneratorMatrixProduct : Obligations.EncodingIsGeneratorMatrixProduct :=
  ⟨encodeNibble_shiftLeft, ⟨rfl, rfl, rfl, rfl⟩, encodeNibble_eq_xor_rows,
    encodeByMatrix_eq_encodeNibble, by decide⟩

/-! ### The codeword table and the weights -/

/-- R72: the codeword of each nibble. -/
theorem map_encodeNibble_finRange :
    (List.finRange 16).map (fun n => encodeNibble (BitVec.ofFin n)) =
      [0x00#8, 0x1E#8, 0x27#8, 0x39#8, 0x4B#8, 0x55#8, 0x6C#8, 0x72#8,
       0x8D#8, 0x93#8, 0xAA#8, 0xB4#8, 0xC6#8, 0xD8#8, 0xE1#8, 0xFF#8] := by
  decide

/-- Settles O14: the table, and the weight of each of its entries. -/
theorem codewordTable : Obligations.CodewordTable := by
  refine ⟨map_encodeNibble_finRange, ?_⟩
  have hweights := congrArg (List.map popcount) map_encodeNibble_finRange
  rw [List.map_map] at hweights
  exact hweights

/-- R72, R74: the weight of each codeword. -/
theorem popcount_encodeNibble : ∀ n : Nibble,
    popcount (encodeNibble n) = if n = 0#4 then 0 else if n = 15#4 then 8 else 4 := by
  decide

/-- R74: by linearity two codewords differ in as many positions as a codeword has ones. -/
theorem four_le_popcount_encodeNibble_xor {a b : Nibble} (h : a ≠ b) :
    4 ≤ popcount (encodeNibble a ^^^ encodeNibble b) := by
  have hne : a ^^^ b ≠ 0#4 := mt BitVec.xor_eq_zero_iff.1 h
  rw [← encodeNibble_xor, popcount_encodeNibble, if_neg hne]
  split <;> decide

/-- Settles O16: the weights are 0, 8 and 4, and the least weight of a nonzero codeword is the least
distance. -/
theorem codewordsAreValidAndFarApart : Obligations.CodewordsAreValidAndFarApart := by
  refine ⟨isCodeword_encodeNibble, fun n => ?_, fun _ _ => four_le_popcount_encodeNibble_xor⟩
  rw [popcount_encodeNibble]
  split_ifs <;> decide

end Sys2Proof.Machine
end

section
/-! PROOFS. Syndrome: the parity-check matrix and its columns, linearity, the bytes of each syndrome
and mismatch, and the response of DECODE (spec/41_syndrome.md R80 to R88, spec/44_decode.md
R118). -/

namespace Sys2Proof.Machine

/-! ### The parity-check matrix -/

/-- R81: the bits of `{b2, b1, b0}`. -/
theorem getLsbD_threeBits (b2 b1 b0 : Bool) :
    (BitVec.ofBool b2 ++ BitVec.ofBool b1 ++ BitVec.ofBool b0).getLsbD 0 = b0 ∧
      (BitVec.ofBool b2 ++ BitVec.ofBool b1 ++ BitVec.ofBool b0).getLsbD 1 = b1 ∧
      (BitVec.ofBool b2 ++ BitVec.ofBool b1 ++ BitVec.ofBool b0).getLsbD 2 = b2 := by
  simp only [BitVec.getLsbD_append]
  simp

theorem toNat_threeBits : ∀ b2 b1 b0 : Bool,
    (BitVec.ofBool b2 ++ BitVec.ofBool b1 ++ BitVec.ofBool b0).toNat =
      b0.toNat + 2 * b1.toNat + 4 * b2.toNat := by
  decide

theorem getLsbD_syndrome (c : Byte) :
    (syndrome c).getLsbD 0 = syndrome0 c ∧ (syndrome c).getLsbD 1 = syndrome1 c ∧
      (syndrome c).getLsbD 2 = syndrome2 c :=
  getLsbD_threeBits ..

/-- R83: each syndrome bit is the parity of the byte under its row. -/
theorem getLsbD_syndrome_eq_parity (c : Byte) :
    (syndrome c).getLsbD 0 = parity (c &&& checkRow 0) ∧
      (syndrome c).getLsbD 1 = parity (c &&& checkRow 1) ∧
      (syndrome c).getLsbD 2 = parity (c &&& checkRow 2) := by
  rw [← syndromeByMatrix_eq_syndrome]
  exact getLsbD_threeBits ..

theorem toNat_syndrome (c : Byte) :
    (syndrome c).toNat = (parity (c &&& checkRow 0)).toNat +
      2 * (parity (c &&& checkRow 1)).toNat + 4 * (parity (c &&& checkRow 2)).toNat := by
  rw [← syndromeByMatrix_eq_syndrome]
  exact toNat_threeBits ..

/-- Settles O17: bit by bit, from the syndrome's definition and from the matrix product. -/
theorem syndromeIsParityCheckProduct : Obligations.SyndromeIsParityCheckProduct := by
  intro c
  obtain ⟨x0, x1, x2⟩ := getLsbD_syndrome c
  obtain ⟨r0, r1, r2⟩ := getLsbD_syndrome_eq_parity c
  have hrow : c &&& 0xFF#8 = c := BitVec.and_allOnes
  rw [hrow]
  exact ⟨x0, x1, x2, r0, r1, r2, syndromeByMatrix_eq_syndrome c, rfl,
    parityMismatch_eq_parity c, parityMismatch_eq_parity c⟩

/-! ### The columns of the parity-check matrix -/

theorem parityMismatch_oneHot : ∀ j : Fin 8, parityMismatch (oneHot j) = true := by decide

/-- Settles O18: the table holds for each nonzero syndrome the one position whose column it is, so
no two columns are equal and every nonzero syndrome is a column. -/
theorem parityCheckColumns : Obligations.ParityCheckColumns := by
  refine ⟨by decide, parityMismatch_oneHot, fun i j hi hj hij => ?_, fun s => ⟨fun hs => ?_, ?_⟩⟩
  · have hs := syndrome_oneHot_ne_zero j hj
    have htable := eq_positionOf_iff (syndrome (oneHot j))
    calc i = (positionOf (syndrome (oneHot j))).toFin := (htable i hs).2 ⟨hi, hij⟩
      _ = j := ((htable j hs).2 ⟨hj, rfl⟩).symm
  · exact ⟨_, (eq_positionOf_iff s _ hs).1 rfl⟩
  · rintro ⟨j, hj, rfl⟩
    exact syndrome_oneHot_ne_zero j hj

/-! ### Linearity -/

/-- R85: a codeword adds nothing to syndrome and mismatch. -/
theorem syndrome_encodeNibble_xor (n : Nibble) (e : Byte) :
    syndrome (encodeNibble n ^^^ e) = syndrome e := by
  rw [syndrome_xor, (isCodeword_encodeNibble n).1, BitVec.zero_xor]

theorem parityMismatch_encodeNibble_xor (n : Nibble) (e : Byte) :
    parityMismatch (encodeNibble n ^^^ e) = parityMismatch e := by
  rw [parityMismatch_xor, (isCodeword_encodeNibble n).2, Bool.false_xor]

/-- Settles O19: syndrome and mismatch are linear and vanish on codewords. -/
theorem syndromeIsLinear : Obligations.SyndromeIsLinear :=
  ⟨fun a b => ⟨syndrome_xor a b, parityMismatch_xor a b⟩,
    fun n e => ⟨syndrome_encodeNibble_xor n e,
      (parityMismatch_encodeNibble_xor n e).trans (parityMismatch_eq_parity e)⟩,
    decodeByte_encodeNibble_xor⟩

/-! ### The bytes of each syndrome and mismatch -/

/-- R66, R86: a codeword is the codeword of its upper half. -/
theorem encodeNibble_extractNibble : ∀ c : Byte,
    IsCodeword c → encodeNibble (extractNibble c) = c := by decide

theorem isCodeword_iff (c : Byte) : IsCodeword c ↔ ∃ n : Nibble, c = encodeNibble n := by
  constructor
  · exact fun h => ⟨_, (encodeNibble_extractNibble c h).symm⟩
  · rintro ⟨n, rfl⟩
    exact isCodeword_encodeNibble n

theorem encodeNibble_injective : Function.Injective encodeNibble :=
  Function.LeftInverse.injective extractNibble_encodeNibble

/-- An error with the syndrome `s` and the mismatch `pm`, of at most two flipped bits: the position
of the syndrome, and the overall parity bit where the mismatch asks for it. -/
def errorOf (s : Syndrome) (pm : Bool) : Byte :=
  oneHot (flipPosition s).toNat ^^^ if pm then 0#8 else oneHot 0

theorem syndrome_errorOf : ∀ (s : Syndrome) (pm : Bool), syndrome (errorOf s pm) = s := by decide

theorem parityMismatch_errorOf : ∀ (s : Syndrome) (pm : Bool),
    parityMismatch (errorOf s pm) = pm := by decide

/-- R85, R86: the bytes with a given syndrome and mismatch are the codewords, all shifted by one
error. -/
theorem syndrome_parityMismatch_eq_iff (c : Byte) (s : Syndrome) (pm : Bool) :
    syndrome c = s ∧ parityMismatch c = pm ↔ ∃ n : Nibble, c = encodeNibble n ^^^ errorOf s pm := by
  constructor
  · rintro ⟨hs, hpm⟩
    have hcode : IsCodeword (c ^^^ errorOf s pm) := by
      simp [IsCodeword, syndrome_xor, parityMismatch_xor, syndrome_errorOf,
        parityMismatch_errorOf, hs, hpm]
    obtain ⟨n, hn⟩ := (isCodeword_iff _).1 hcode
    exact ⟨n, by rw [← hn, BitVec.xor_assoc, BitVec.xor_self, BitVec.xor_zero]⟩
  · rintro ⟨n, rfl⟩
    rw [syndrome_encodeNibble_xor, parityMismatch_encodeNibble_xor]
    exact ⟨syndrome_errorOf s pm, parityMismatch_errorOf s pm⟩

/-- The numbers below `m` with a property are as many as the values `α` that number them. -/
theorem countP_finRange_eq_card {α : Type} [Fintype α] {m : Nat} {f : α → Fin m}
    (hinj : Function.Injective f) {p : Fin m → Bool} (hp : ∀ i, p i = true ↔ ∃ a, i = f a) :
    (List.finRange m).countP p = Fintype.card α := by
  have himage : Finset.univ.filter (fun i => p i = true) = Finset.univ.image f := by
    ext i
    simp [hp, eq_comm]
  rw [← Finset.card_univ, ← Finset.card_image_of_injective _ hinj, ← himage]
  simp [Finset.card, Finset.filter, Fin.univ_def, List.countP_eq_length_filter]

/-- R86: a shift of the codewords has as many bytes as there are nibbles. -/
theorem countP_syndrome_parityMismatch (s : Syndrome) (pm : Bool) :
    (List.finRange 256).countP
      (fun c => syndrome (BitVec.ofFin c) == s && parityMismatch (BitVec.ofFin c) == pm) = 16 := by
  have hinj : Function.Injective fun n : Nibble => (encodeNibble n ^^^ errorOf s pm).toFin :=
    fun a b h => encodeNibble_injective ((BitVec.xor_left_inj _).1 (BitVec.toFin_inj.1 h))
  rw [countP_finRange_eq_card hinj]
  · exact fintypeCard_bitVec 4
  · intro c
    rw [Bool.and_eq_true, beq_iff_eq, beq_iff_eq, syndrome_parityMismatch_eq_iff]
    exact exists_congr fun n => ⟨fun h => congrArg BitVec.toFin h, fun h => congrArg BitVec.ofFin h⟩

/-- Settles O20: the bytes of a syndrome and a mismatch are a shift of the 16 codewords. -/
theorem exactlyTheCodewordsCheck : Obligations.ExactlyTheCodewordsCheck :=
  ⟨isCodeword_iff, countP_syndrome_parityMismatch⟩

/-! ### The response of DECODE -/

theorem syndromeToNat_eq_zero_iff (s : Syndrome) : s.toNat = 0 ↔ s = 0#3 :=
  BitVec.toNat_inj (y := 0#3)

/-- R54, R98: the code of each row of the classification table, by the syndrome as a number. -/
theorem kindCode_classify (s : Syndrome) (pm : Bool) :
    kindCode (classify s pm) =
      if s.toNat = 0 then (if pm then 0b10#2 else 0b00#2)
      else (if pm then 0b01#2 else 0b11#2) := by
  simp only [syndromeToNat_eq_zero_iff, classify, apply_ite kindCode]
  rfl

theorem kindCode_eq_doubleBitError_iff (k : ErrorKind) :
    kindCode k = 0b11#2 ↔ k = .doubleBitError := by
  cases k <;> decide

/-- R91: the entries of T. -/
theorem toNat_positionOf : ∀ s : Syndrome,
    (positionOf s).toNat = [0, 1, 2, 5, 3, 6, 7, 4].getD s.toNat 0 := by decide

/-- R101, R102: the flip mask, by the syndrome as a number. -/
theorem flipMask_eq (d : Config.DoubleFlip) (s : Syndrome) (pm : Bool) :
    flipMask d s pm =
      if s.toNat = 0 then (if pm then 0x01#8 else 0x00#8)
      else if pm ∨ d = .flip then 1#8 <<< [0, 1, 2, 5, 3, 6, 7, 4].getD s.toNat 0 else 0x00#8 := by
  rw [← toNat_positionOf]
  by_cases hs : s = 0#3
  · simp [flipMask, flipEnable, flipPosition, hs, oneHot]
  · simp [flipMask, flipEnable, flipPosition, hs, syndromeToNat_eq_zero_iff, oneHot]

/-- R114, R118: DECODE responds with the nibble of the corrected codeword and the code of the kind,
unless `draw` leaves the nibble of a DoubleBitError free. -/
theorem performWith_dec {p : Config.Params} {c : Byte}
    (h : classify (syndrome c) (parityMismatch c) ≠ .doubleBitError ∨ p.doubleFlip ≠ .draw)
    (s : State) :
    performWith p (.dec c) s =
      respond (nibbleData (extractNibble
          (c ^^^ flipMask p.doubleFlip (syndrome c) (parityMismatch c))))
        (kindCode (classify (syndrome c) (parityMismatch c))) s := by
  rcases decodeOp_cases p c s with ⟨hkind, hdraw, -⟩ | ⟨-, hr⟩
  · exact absurd h (not_or.2 ⟨not_not.2 hkind, not_not.2 hdraw⟩)
  · exact hr

/-- Settles O27: syndrome, kind and mask as written out are those of the decoder, and this machine
never draws. -/
theorem decodeRespondsWithNibbleAndKind : Obligations.DecodeRespondsWithNibbleAndKind := by
  intro s c p index pm kind mask after
  have hindex : (syndrome c).toNat = index := toNat_syndrome c
  have hpm : parityMismatch c = pm := parityMismatch_eq_parity c
  have hkind : kindCode (classify (syndrome c) (parityMismatch c)) = kind := by
    rw [kindCode_classify, hindex, hpm]
  have hmask (d : Config.DoubleFlip) : flipMask d (syndrome c) (parityMismatch c) = mask d := by
    rw [flipMask_eq, hindex, hpm]
  have hdec (q : Config.Params) (h : kind ≠ 0b11#2 ∨ q.doubleFlip ≠ .draw) :
      performWith q (.dec c) s = after q.doubleFlip := by
    rw [← hkind, Ne, kindCode_eq_doubleBitError_iff] at h
    rw [performWith_dec h, hkind, hmask]
    rfl
  refine ⟨?_, hdec p⟩
  rw [exec_eq_performWith, hdec params (.inr nofun)]
  rfl

end Sys2Proof.Machine
end

section
/-! PROOFS. The position table: its bijection with the columns of the parity-check matrix, and the
one-hot decode of the syndrome (spec/42_position_table.md R90 to R96). -/

namespace Sys2Proof.Machine

/-! ### The table and the columns -/

/-- R93: the table takes the column of each position but the parity bit's back to the position. -/
theorem positionOf_syndrome_oneHot {j : Position} (hj : j ≠ 0#3) :
    positionOf (syndrome (oneHot j.toNat)) = j := by
  have hj' : j.toFin ≠ 0 := mt BitVec.toFin_inj.1 hj
  have hs := syndrome_oneHot_ne_zero j.toFin hj'
  exact (BitVec.toFin_inj.1 ((eq_positionOf_iff _ j.toFin hs).2 ⟨hj', rfl⟩)).symm

/-- R93: the position in the table has the syndrome as its column. -/
theorem syndrome_oneHot_positionOf {s : Syndrome} (hs : s ≠ 0#3) :
    syndrome (oneHot (positionOf s).toNat) = s :=
  ((eq_positionOf_iff s _ hs).1 rfl).2

theorem positionOf_ne_zero {s : Syndrome} (hs : s ≠ 0#3) : positionOf s ≠ 0#3 :=
  mt BitVec.toFin_inj.2 ((eq_positionOf_iff s _ hs).1 rfl).1

/-- Settles O21: on the nonzero indices the table and the columns are inverse to each other, so the
table is one-to-one and onto. -/
theorem positionTableIsBijection : Obligations.PositionTableIsBijection := by
  refine ⟨by decide, fun j => positionOf_syndrome_oneHot, fun s => syndrome_oneHot_positionOf,
    fun s => positionOf_ne_zero, fun s t hs ht hst => ?_, fun j hj => ?_⟩
  · rw [← syndrome_oneHot_positionOf hs, hst, syndrome_oneHot_positionOf ht]
  · exact ⟨_, syndrome_oneHot_ne_zero j.toFin (mt BitVec.toFin_inj.1 hj),
      positionOf_syndrome_oneHot hj⟩

/-! ### The one-hot decode of the syndrome -/

theorem flipPosition_of_ne_zero {s : Syndrome} (hs : s ≠ 0#3) : flipPosition s = positionOf s :=
  if_neg hs

/-- R95: bit `j` of the one-hot mask is set exactly when the syndrome is column `j`. -/
theorem getLsbD_maskOfSyndrome (s : Syndrome) (j : Fin 8) :
    (maskOfSyndrome s).getLsbD j = (syndrome (oneHot j) == s) :=
  calc (maskOfSyndrome s).getLsbD j
      = ((List.range 8).map fun i => syndrome (oneHot i) == s).getD j false :=
        BitVec.getLsbD_ofBoolListLE
    _ = (syndrome (oneHot j) == s) := by simp [List.getD_eq_getElem?_getD]

/-- R84, R101: the position chosen for a syndrome, 0 included, is the only one whose column it
is. -/
theorem syndrome_oneHot_eq_iff (s : Syndrome) (j : Fin 8) :
    syndrome (oneHot j) = s ↔ (flipPosition s).toFin = j := by
  by_cases hs : s = 0#3
  · subst hs
    constructor
    · exact fun hj => (not_imp_not.1 (syndrome_oneHot_ne_zero j) hj).symm
    · rintro rfl
      rfl
  · rw [flipPosition_of_ne_zero hs, eq_comm (b := j), eq_positionOf_iff s j hs]
    constructor
    · rintro rfl
      exact ⟨fun hj => hs (by rw [hj]; rfl), rfl⟩
    · exact And.right

/-- R95: the one-hot decode is the mask of the chosen position. -/
theorem maskOfSyndrome_eq_oneHot (s : Syndrome) :
    maskOfSyndrome s = oneHot (flipPosition s).toNat := by
  refine byte_ext fun j => ?_
  calc (maskOfSyndrome s).getLsbD j
      = (syndrome (oneHot j) == s) := getLsbD_maskOfSyndrome s j
    _ = ((flipPosition s).toFin == j) := by
        rw [Bool.eq_iff_iff, beq_iff_eq, beq_iff_eq, syndrome_oneHot_eq_iff]
    _ = (oneHot (flipPosition s).toNat).getLsbD j := (getLsbD_oneHot _ j).symm

/-- Settles O22: both forms of the mask have the bits of the columns; for a nonzero syndrome the
chosen position is the table's entry. -/
theorem oneHotDecodeEqualsTable : Obligations.OneHotDecodeEqualsTable :=
  fun s => ⟨maskOfSyndrome_eq_oneHot s,
    fun hs => flipPosition_of_ne_zero hs ▸ maskOfSyndrome_eq_oneHot s⟩

end Sys2Proof.Machine
end


section
/-! PROOFS. Classification and correction: the table and the flip mask, what an error pattern of a
given weight is classified and corrected to, the free nibble under `draw`, and the codec end to end
over two steps (spec/43_classify_correct.md R98 to R108, spec/44_decode.md R117 and R118). -/

namespace Sys2Proof.Machine

/-! ### The rows of the classification table -/

theorem classify_of_mismatch {s : Syndrome} (hs : s ≠ 0#3) : classify s true = .singleBitError :=
  if_neg hs

theorem classify_of_match {s : Syndrome} (hs : s ≠ 0#3) : classify s false = .doubleBitError :=
  if_neg hs

theorem classify_eq_noError_iff (s : Syndrome) (pm : Bool) :
    classify s pm = .noError ↔ s = 0#3 ∧ pm = false := by
  by_cases hs : s = 0#3 <;> cases pm <;> simp [classify, hs]

theorem classify_eq_parityBitError_iff (s : Syndrome) (pm : Bool) :
    classify s pm = .parityBitError ↔ s = 0#3 ∧ pm = true := by
  by_cases hs : s = 0#3 <;> cases pm <;> simp [classify, hs]

/-- R98: without syndrome and mismatch nothing is flipped. -/
theorem classifyCorrect_noError (d : Config.DoubleFlip) (c : Byte) :
    classifyCorrect d c 0#3 false = (.noError, c) :=
  congrArg (Prod.mk _) BitVec.xor_zero

/-- R98, R101: a mismatch flips the chosen position, whatever `DOUBLE_FLIP` is. -/
theorem classifyCorrect_mismatch (d : Config.DoubleFlip) (c : Byte) (s : Syndrome) :
    classifyCorrect d c s true = (classify s true, c ^^^ oneHot (flipPosition s).toNat) := rfl

theorem classifyCorrect_parityBitError (d : Config.DoubleFlip) (c : Byte) :
    classifyCorrect d c 0#3 true = (.parityBitError, c ^^^ 0x01#8) := rfl

theorem classifyCorrect_singleBitError (d : Config.DoubleFlip) (c : Byte) {s : Syndrome}
    (hs : s ≠ 0#3) :
    classifyCorrect d c s true = (.singleBitError, c ^^^ oneHot (positionOf s).toNat) := by
  rw [classifyCorrect_mismatch, classify_of_mismatch hs, flipPosition_of_ne_zero hs]

/-- R98, R104: a DoubleBitError flips position `T[S]` under `flip` and nothing under `noflip`. -/
theorem classifyCorrect_doubleBitError (c : Byte) {s : Syndrome} (hs : s ≠ 0#3) :
    classifyCorrect .flip c s false = (.doubleBitError, c ^^^ oneHot (positionOf s).toNat) ∧
      classifyCorrect .noflip c s false = (.doubleBitError, c) := by
  simp [classifyCorrect, classify_of_match hs, flipMask, flipEnable, flipPosition, hs]

/-- Settles O23: row by row; the four conditions split on the syndrome and on the mismatch. -/
theorem classificationTable : Obligations.ClassificationTable := by
  refine ⟨classifyCorrect_noError, classifyCorrect_parityBitError,
    fun d c _ => classifyCorrect_singleBitError d c, fun c _ => classifyCorrect_doubleBitError c,
    ⟨rfl, rfl, rfl, rfl⟩, fun s pm => ?_⟩
  by_cases hs : s = 0#3 <;> cases pm <;> simp [hs]

/-! ### The flip mask -/

theorem popcount_oneHot : ∀ j : Fin 8, popcount (oneHot j) = 1 := by decide

/-- R102: the mask is one chosen position or nothing. -/
theorem flipMask_eq_zero_or_popcount_eq_one (d : Config.DoubleFlip) (s : Syndrome) (pm : Bool) :
    flipMask d s pm = 0#8 ∨ popcount (flipMask d s pm) = 1 := by
  rw [flipMask]
  split
  · exact .inr (popcount_oneHot (flipPosition s).toFin)
  · exact .inl rfl

/-- R103: bit 0 is no data bit. -/
theorem extractNibble_xor_one (c : Byte) : extractNibble (c ^^^ 0x01#8) = extractNibble c := by
  rw [extractNibble_xor]
  exact BitVec.xor_zero

/-- Settles O24: the mask is one position or nothing by definition; NoError and ParityBitError stand
in one row of the table each, with mask 0 and mask 1. -/
theorem flipMaskTouchesAtMostOneBit : Obligations.FlipMaskTouchesAtMostOneBit := by
  refine fun d c s pm => ⟨rfl, flipMask_eq_zero_or_popcount_eq_one d s pm, rfl, fun h => ?_,
    fun h => ?_⟩
  · obtain ⟨rfl, rfl⟩ := (classify_eq_noError_iff s pm).1 h
    rw [classifyCorrect_noError]
  · obtain ⟨rfl, rfl⟩ := (classify_eq_parityBitError_iff s pm).1 h
    exact ⟨rfl, extractNibble_xor_one c⟩

/-! ### The weight of an error pattern -/

/-- R7: the weight of a byte is the number of its positions that hold a 1. -/
theorem popcount_eq_card (e : Byte) :
    popcount e = (Finset.univ.filter fun i : Fin 8 => e.getLsbD i = true).card := by
  simp [popcount, Finset.card, Finset.filter, Fin.univ_def, ← List.countP_eq_length_filter,
    ← List.map_coe_finRange_eq_range, List.countP_map, Function.comp_def]

theorem eq_zero_of_popcount_eq_zero {e : Byte} (he : popcount e = 0) : e = 0#8 := by
  rw [popcount_eq_card, Finset.card_eq_zero, Finset.filter_eq_empty_iff] at he
  exact byte_ext fun i => by simpa using he (Finset.mem_univ i)

theorem exists_oneHot_of_popcount_eq_one {e : Byte} (he : popcount e = 1) :
    ∃ i : Fin 8, e = oneHot i := by
  rw [popcount_eq_card, Finset.card_eq_one] at he
  obtain ⟨i, hi⟩ := he
  refine ⟨i, byte_ext fun j => ?_⟩
  have hj : e.getLsbD j = true ↔ j = i := by simpa using Finset.ext_iff.1 hi j
  rw [getLsbD_oneHot, Bool.eq_iff_iff, hj, beq_iff_eq, eq_comm]

/-- R82: an odd number of flipped bits, and no other, gives a parity mismatch. -/
theorem parityMismatch_eq_odd_popcount : ∀ e : Byte,
    parityMismatch e = decide (popcount e % 2 = 1) := by decide

/-- R74: an error without syndrome and mismatch is a codeword, of weight 0, 4 or 8. -/
theorem popcount_of_isCodeword {e : Byte} (he : IsCodeword e) :
    popcount e = 0 ∨ popcount e = 4 ∨ popcount e = 8 := by
  obtain ⟨m, rfl⟩ := (isCodeword_iff e).1 he
  obtain ⟨-, hweight, -⟩ := codewordsAreValidAndFarApart
  exact hweight m

/-- R105: two flipped bits keep the parity, and are too few to reach another codeword. -/
theorem double_of_popcount_eq_two {e : Byte} (he : popcount e = 2) :
    parityMismatch e = false ∧ syndrome e ≠ 0#3 := by
  have hpm : parityMismatch e = false := by simp [parityMismatch_eq_odd_popcount, he]
  refine ⟨hpm, fun hs => ?_⟩
  have := popcount_of_isCodeword ⟨hs, hpm⟩
  omega

/-! ### At most two flipped bits -/

/-- Settles O25: a codeword adds nothing to syndrome and mismatch, so the error alone chooses the
row of the table, and a flipped bit is flipped back. -/
theorem guaranteesUpToTwoFlips : Obligations.GuaranteesUpToTwoFlips := by
  intro d n e c r
  have hs : syndrome c = syndrome e := syndrome_encodeNibble_xor n e
  have hpm : parityMismatch c = parityMismatch e := parityMismatch_encodeNibble_xor n e
  have hr : r = classifyCorrect d c (syndrome e) (parityMismatch e) := by rw [← hs, ← hpm]
  rw [hr, hs, hpm]
  refine ⟨rfl, parityMismatch_eq_parity e, fun he => ?_, fun he => ?_, fun j hj he => ?_,
    fun he => ?_⟩
  · obtain rfl := eq_zero_of_popcount_eq_zero he
    exact ⟨rfl, rfl, (classifyCorrect_noError d c).trans (congrArg (Prod.mk _) BitVec.xor_zero)⟩
  · subst he
    exact ⟨rfl, rfl, congrArg (Prod.mk _) (xor_cancel_right _ _)⟩
  · obtain rfl : e = oneHot j.toNat := he
    have hne : syndrome (oneHot j.toNat) ≠ 0#3 :=
      syndrome_oneHot_ne_zero j.toFin (mt BitVec.toFin_inj.1 hj)
    have hodd : parityMismatch (oneHot j.toNat) = true := parityMismatch_oneHot j.toFin
    have htable := positionOf_syndrome_oneHot hj
    refine ⟨rfl, hne, hodd, htable, ?_⟩
    rw [hodd, classifyCorrect_singleBitError d c hne, htable, xor_cancel_right]
  · obtain ⟨heven, hne⟩ := double_of_popcount_eq_two he
    exact ⟨heven, hne, by rw [heven]; exact classify_of_match hne⟩

/-! ### Three and four flipped bits -/

/-- R85: the kind of a corrupted codeword is that of its error. -/
theorem decodeByte_encodeNibble_xor_kind (d : Config.DoubleFlip) (n : Nibble) (e : Byte) :
    (decodeByte d (encodeNibble n ^^^ e)).2 = classify (syndrome e) (parityMismatch e) := by
  rw [decodeByte_encodeNibble_xor, decodeByte_kind]

/-- R98: a mismatch is taken for one flipped bit. -/
theorem classify_mismatch_cases (s : Syndrome) :
    classify s true = .singleBitError ∨ classify s true = .parityBitError := by
  by_cases hs : s = 0#3
  · exact .inr ((classify_eq_parityBitError_iff s true).2 ⟨hs, rfl⟩)
  · exact .inl (classify_of_mismatch hs)

/-- R98: without mismatch either two flipped bits are reported or none. -/
theorem classify_match_cases (s : Syndrome) :
    classify s false = .doubleBitError ∨ classify s false = .noError := by
  by_cases hs : s = 0#3
  · exact .inr ((classify_eq_noError_iff s false).2 ⟨hs, rfl⟩)
  · exact .inl (classify_of_match hs)

/-- R102, R107: correcting a byte with a mismatch leads to a codeword. -/
theorem isCodeword_xor_oneHot_flipPosition {e : Byte} (he : parityMismatch e = true) :
    IsCodeword (e ^^^ oneHot (flipPosition (syndrome e)).toNat) := by
  have hs : syndrome (oneHot (flipPosition (syndrome e)).toNat) = syndrome e :=
    (syndrome_oneHot_eq_iff (syndrome e) (flipPosition (syndrome e)).toFin).2 rfl
  have hpm : parityMismatch (oneHot (flipPosition (syndrome e)).toNat) = true :=
    parityMismatch_oneHot (flipPosition (syndrome e)).toFin
  simp [IsCodeword, syndrome_xor, parityMismatch_xor, hs, hpm, he]

/-- R107: a byte with a mismatch that decodes to the nibble 0 is one bit away from the codeword
0. -/
theorem popcount_eq_one_of_decodeByte_eq_zero {d : Config.DoubleFlip} {e : Byte}
    (he : parityMismatch e = true) (hzero : (decodeByte d e).1 = 0#4) : popcount e = 1 := by
  have hnibble : extractNibble (e ^^^ oneHot (flipPosition (syndrome e)).toNat) = 0#4 := by
    rw [decodeByte, he, classifyCorrect_mismatch] at hzero
    exact hzero
  have hword := encodeNibble_extractNibble _ (isCodeword_xor_oneHot_flipPosition he)
  rw [hnibble, encodeNibble_zero] at hword
  rw [BitVec.xor_eq_zero_iff.1 hword.symm]
  exact popcount_oneHot (flipPosition (syndrome e)).toFin

/-- R105: without error a byte decodes to its own upper half. -/
theorem decodeByte_of_isCodeword (d : Config.DoubleFlip) {c : Byte} (hc : IsCodeword c) :
    decodeByte d c = (extractNibble c, .noError) := by
  obtain ⟨hs, hpm⟩ := hc
  rw [decodeByte, hs, hpm, classifyCorrect_noError]

/-- The bytes with a property, counted through their numbers. -/
theorem countP_bytes_eq_card (p : Byte → Bool) :
    (List.finRange 256).countP (fun e => p (BitVec.ofFin e)) =
      Fintype.card {e : Byte // p e = true} :=
  countP_finRange_eq_card (f := fun e : {e : Byte // p e = true} => e.val.toFin)
    (fun _ _ h => Subtype.ext (BitVec.toFin_inj.1 h))
    fun i => ⟨fun h => ⟨⟨BitVec.ofFin i, h⟩, rfl⟩, by rintro ⟨⟨e, he⟩, rfl⟩; exact he⟩

/-- R107: how many error patterns of weight 3 and 4 there are of each kind. -/
theorem countP_popcount_kind :
    let count := fun (weight : Nat) (kind : ErrorKind) => (List.finRange 256).countP fun e =>
      popcount (BitVec.ofFin e) == weight &&
        classify (syndrome (BitVec.ofFin e)) (parityMismatch (BitVec.ofFin e)) == kind
    count 3 .singleBitError = 49 ∧ count 3 .parityBitError = 7 ∧
      count 4 .doubleBitError = 56 ∧ count 4 .noError = 14 := by
  intro count
  have hcount (weight : Nat) (kind : ErrorKind) := countP_bytes_eq_card fun e =>
    popcount e == weight && classify (syndrome e) (parityMismatch e) == kind
  exact ⟨(hcount _ _).trans (by decide), (hcount _ _).trans (by decide),
    (hcount _ _).trans (by decide), (hcount _ _).trans (by decide)⟩

/-- R107: three flipped bits are taken for one, and the correction leads to another nibble. -/
theorem decodeByte_of_popcount_eq_three {e : Byte} (he : popcount e = 3)
    (d : Config.DoubleFlip) (n : Nibble) :
    parityMismatch (encodeNibble n ^^^ e) = true ∧
      ((decodeByte d (encodeNibble n ^^^ e)).2 = .singleBitError ∨
        (decodeByte d (encodeNibble n ^^^ e)).2 = .parityBitError) ∧
      (decodeByte d (encodeNibble n ^^^ e)).1 ≠ n := by
  have hpm : parityMismatch e = true := by simp [parityMismatch_eq_odd_popcount, he]
  refine ⟨(parityMismatch_encodeNibble_xor n e).trans hpm, ?_, fun hn => ?_⟩
  · rw [decodeByte_encodeNibble_xor_kind, hpm]
    exact classify_mismatch_cases (syndrome e)
  · rw [decodeByte_encodeNibble_xor, xor_left_eq_self_iff] at hn
    have := popcount_eq_one_of_decodeByte_eq_zero hpm hn
    omega

/-- R107: four flipped bits are taken for two, or for none where the error is a codeword. -/
theorem decodeByte_of_popcount_eq_four {e : Byte} (he : popcount e = 4)
    (d : Config.DoubleFlip) (n : Nibble) :
    parityMismatch (encodeNibble n ^^^ e) = false ∧
      ((decodeByte d (encodeNibble n ^^^ e)).2 = .doubleBitError ∨
        (decodeByte d (encodeNibble n ^^^ e)).2 = .noError) ∧
      ((decodeByte d (encodeNibble n ^^^ e)).2 = .noError ↔ ∃ m : Nibble, e = encodeNibble m) ∧
      ((decodeByte d (encodeNibble n ^^^ e)).2 = .noError →
        (decodeByte d (encodeNibble n ^^^ e)).1 = n ^^^ e.extractLsb' 4 4) := by
  have hpm : parityMismatch e = false := by simp [parityMismatch_eq_odd_popcount, he]
  have hnoError := classify_eq_noError_iff (syndrome e) (parityMismatch e)
  rw [decodeByte_encodeNibble_xor_kind, ← isCodeword_iff]
  refine ⟨(parityMismatch_encodeNibble_xor n e).trans hpm, ?_, hnoError, fun hkind => ?_⟩
  · rw [hpm]
    exact classify_match_cases (syndrome e)
  · rw [decodeByte_encodeNibble_xor, decodeByte_of_isCodeword d (hnoError.1 hkind), extractNibble]

/-- Settles O26: the parity of the weight fixes the mismatch; three flips are corrected to another
codeword, as only one flip is corrected to the same, and four without syndrome are a codeword. -/
theorem threeAndFourFlipsMisclassify : Obligations.ThreeAndFourFlipsMisclassify := by
  refine ⟨fun d n _ he => decodeByte_of_popcount_eq_three he d n,
    fun d n _ he => decodeByte_of_popcount_eq_four he d n, fun d n => ?_,
    fun d => ⟨rfl, rfl, rfl, by cases d <;> rfl⟩⟩
  simp only [decodeByte_encodeNibble_xor_kind]
  exact countP_popcount_kind

/-! ### The free nibble under `draw` -/

/-- Settles O28: a nonzero syndrome without mismatch is a DoubleBitError, on which DECODE draws. -/
theorem doubleErrorUnderDrawIsFree : Obligations.DoubleErrorUnderDrawIsFree := by
  intro s c h hs hpm
  have hkind : (decodeByte .draw c).2 = .doubleBitError := by
    rw [decodeByte_kind, hpm, classify_of_match hs]
  rcases decodeOp_cases { encHighNibble := h, doubleFlip := .draw } c s with
    ⟨-, -, hdraw⟩ | ⟨hnot, -⟩
  · exact hdraw
  · exact absurd hkind (hnot.resolve_right (not_not.2 rfl))

/-! ### End to end -/

theorem classify_of_popcount_eq_zero {e : Byte} (he : popcount e = 0) :
    classify (syndrome e) (parityMismatch e) = .noError := by
  rw [eq_zero_of_popcount_eq_zero he]
  rfl

theorem classify_of_popcount_eq_one {e : Byte} (he : popcount e = 1) :
    classify (syndrome e) (parityMismatch e) =
      if e = 0x01#8 then .parityBitError else .singleBitError := by
  obtain ⟨i, rfl⟩ := exists_oneHot_of_popcount_eq_one he
  have hbit : ∀ i : Fin 8, oneHot i = 0x01#8 ↔ i = 0 := by decide
  have hkind := congrArg Prod.snd (decodeByte_oneHot .flip i)
  simpa only [decodeByte_kind, hbit] using hkind

theorem classify_of_popcount_eq_two {e : Byte} (he : popcount e = 2) :
    classify (syndrome e) (parityMismatch e) = .doubleBitError := by
  obtain ⟨heven, hne⟩ := double_of_popcount_eq_two he
  rw [heven, classify_of_match hne]

/-- R105, R117: at most one flipped bit gives the nibble back, and no DoubleBitError. -/
theorem corrected_of_popcount_le_one {e : Byte} (he : popcount e ≤ 1) (d : Config.DoubleFlip)
    (n : Nibble) :
    (decodeByte d (encodeNibble n ^^^ e)).1 = n ∧
      classify (syndrome (encodeNibble n ^^^ e)) (parityMismatch (encodeNibble n ^^^ e)) ≠
        .doubleBitError := by
  rw [decodeByte_encodeNibble_xor, xor_left_eq_self_iff, syndrome_encodeNibble_xor,
    parityMismatch_encodeNibble_xor]
  rcases Nat.le_one_iff_eq_zero_or_eq_one.1 he with h0 | h1
  · refine ⟨?_, by rw [classify_of_popcount_eq_zero h0]; nofun⟩
    rw [eq_zero_of_popcount_eq_zero h0, decodeByte_zero]
    rfl
  · refine ⟨?_, by rw [classify_of_popcount_eq_one h1]; split <;> nofun⟩
    obtain ⟨i, rfl⟩ := exists_oneHot_of_popcount_eq_one h1
    rw [decodeByte_oneHot]
    rfl

/-- R23: under any parameters, a step with a request and without reset performs the request after
the host's side of the step. -/
theorem stepWith_of_request {s : State} (hrst : (currentInput s).rst = false)
    (hreq : (currentInput s).reqValid = true) (p : Config.Params) :
    stepWith p s =
      .next (performWith p (presentedRequest s) (hostSide (currentInput s) s)) := by
  simp [stepWith, cycle, cycleOn, hrst, hreq]

/-- R21: after a response no read is a fault. -/
theorem faultsOf_respond (inp : StepInput) (data : Byte) (kind : KindCode) (s : State) :
    faultsOf inp (respond data kind s) = [] := by
  simp [faultsOf, readFaults]

/-- R118: the kind on RSP_KIND after DECODE, under every setting. -/
theorem portValue_rspKind_dec (p : Config.Params) (c : Byte) (s : State) :
    portValue (performWith p (.dec c) s).rspKind =
      some (kindCode (classify (syndrome c) (parityMismatch c))) := by
  obtain ⟨hkind, -⟩ := performWith_wellFormed_fields (i := .dec c) rfl p s
  rw [hkind]
  rfl

/-- R118: the nibble on RSP_DATA after DECODE, unless it is that of a DoubleBitError. -/
theorem portValue_rspData_dec {c : Byte}
    (hc : classify (syndrome c) (parityMismatch c) ≠ .doubleBitError) (p : Config.Params)
    (s : State) :
    portValue (performWith p (.dec c) s).rspData =
      some (nibbleData (decodeByte p.doubleFlip c).1) := by
  rw [performWith_dec (.inl hc)]
  rfl

/-- R105: what DECODE of a corrupted codeword leaves on RSP_KIND, whatever the error. -/
theorem portValue_rspKind_dec_corrupted (p : Config.Params) (n : Nibble) (e : Byte) (s : State) :
    portValue (performWith p (.dec (encodeNibble n ^^^ e)) s).rspKind =
      some (kindCode (classify (syndrome e) (parityMismatch e))) := by
  rw [portValue_rspKind_dec, syndrome_encodeNibble_xor, parityMismatch_encodeNibble_xor]

/-- R105, R117: DECODE of a codeword with at most one flipped bit leaves its nibble on RSP_DATA. -/
theorem portValue_rspData_dec_corrupted {e : Byte} (he : popcount e ≤ 1) (p : Config.Params)
    (n : Nibble) (s : State) :
    portValue (performWith p (.dec (encodeNibble n ^^^ e)) s).rspData = some (0#4 ++ n) := by
  obtain ⟨hnibble, hkind⟩ := corrected_of_popcount_le_one he p.doubleFlip n
  rw [portValue_rspData_dec hkind, hnibble, nibbleData]

/-- R75: a step that presents ENCODE of `n` responds with its codeword. -/
theorem stepWith_enc_nibble {s : State} {n : Nibble} (hrst : (currentInput s).rst = false)
    (hreq : (currentInput s).reqValid = true) (hop : (currentInput s).reqOp = false)
    (harg : (currentInput s).reqArg = 0#4 ++ n) (p : Config.Params) :
    stepWith p s =
      .next (respond (encodeNibble n) 0b00#2 (hostSide (currentInput s) s)) := by
  have hrequest : presentedRequest s = .enc (0#4 ++ n) := by simp [hop, harg]
  rw [stepWith_of_request hrst hreq, hrequest, performWith_enc_nibble]

/-- R118: a step in which the host presents DECODE performs it. -/
theorem stepWith_setNextInput_dec {inp : StepInput} (hrst : inp.rst = false)
    (hreq : inp.reqValid = true) (hop : inp.reqOp = true) (p : Config.Params) (s : State) :
    stepWith p (setNextInput inp s) =
      .next (performWith p (.dec inp.reqArg) (hostSide inp s)) := by
  have hrequest : presentedRequest (setNextInput inp s) = .dec inp.reqArg := by simp [hop]
  rw [stepWith_of_request (s := setNextInput inp s) hrst hreq, hrequest, currentInput_setNextInput,
    hostSide_setNextInput]

/-- Settles O44: the first step responds with the codeword, so the second reads written registers
and decodes the codeword corrupted by the error, whose weight fixes the kind. -/
theorem endToEndSecded : Obligations.EndToEndSecded := by
  intro run hrun s n e inp hrst hreq hop harg hrst' hreq' hop'
  obtain ⟨p, rfl⟩ : ∃ p, run = stepWith p :=
    hrun.elim (fun h => ⟨params, h.trans (funext step_eq_stepWith_params)⟩) id
  let next : StepInput := { inp with reqArg := encodeNibble n ^^^ e }
  let t := respond (encodeNibble n) 0b00#2 (hostSide (currentInput s) s)
  let u := performWith p (.dec (encodeNibble n ^^^ e)) (hostSide next t)
  have hfirst : stepWith p s = .next t := stepWith_enc_nibble hrst hreq hop harg p
  have hsecond : stepWith p (setNextInput next t) = .next u :=
    stepWith_setNextInput_dec (inp := next) hrst' hreq' hop' p t
  obtain ⟨-, hvalid, -, -, hrefused, hfaults, -⟩ :=
    performWith_wellFormed_fields (i := .dec (encodeNibble n ^^^ e)) rfl p (hostSide next t)
  have hfaults' : u.faults = s.faults ++ faultsOf (currentInput s) s := by
    rw [hfaults, hostSide_faults, faultsOf_respond, List.append_nil]
    rfl
  have hkind := portValue_rspKind_dec_corrupted p n e (hostSide next t)
  have hdata (he : popcount e ≤ 1) := portValue_rspData_dec_corrupted he p n (hostSide next t)
  have htwo (he : popcount e = 2) : portValue u.rspKind = some 0b11#2 := by
    rw [hkind, classify_of_popcount_eq_two he]
    rfl
  refine ⟨t, encodeNibble n, u, hfirst, rfl, hsecond, hvalid, hrefused, hfaults',
    fun hd hk => ?_, hdata, fun he => ?_, fun he => ?_, htwo, fun he hne => ?_⟩
  · rw [hfaults', faultsOf_noRead hd hk, List.append_nil]
  · rw [hkind, classify_of_popcount_eq_zero he]
    rfl
  · rw [hkind, classify_of_popcount_eq_one he]
    split <;> rfl
  · exact hdata (Nat.le_of_lt_succ (lt_of_le_of_ne he fun h2 => hne (htwo h2)))

end Sys2Proof.Machine
end


section
/-! PROOFS. Decoding: the source's codec properties, the nibble in terms of the received data bits,
and how often each kind occurs (spec/44_decode.md R115 to R117). -/

namespace Sys2Proof.Machine

/-! ### The source's properties -/

/-- Settles O31: a corrupted codeword decodes as its error, of no, one or two flipped bits, does. -/
theorem sourceCodecProperties : Obligations.SourceCodecProperties := by
  refine fun d n => ⟨?_, fun j => ?_, fun i j hij => ?_⟩
  · rw [decodeByte_of_isCodeword d (isCodeword_encodeNibble n), extractNibble_encodeNibble]
  · change decodeByte d (encodeNibble n ^^^ oneHot j) = _
    rw [decodeByte_encodeNibble_xor, decodeByte_oneHot, BitVec.xor_zero]
  · change (decodeByte d (encodeNibble n ^^^ oneHot i ^^^ oneHot j)).2 = _
    rw [BitVec.xor_assoc, decodeByte_encodeNibble_xor]
    exact decodeByte_two_oneHot d i j hij

/-! ### The nibble in terms of the received data bits -/

theorem classify_eq_singleBitError_iff (s : Syndrome) (pm : Bool) :
    classify s pm = .singleBitError ↔ s ≠ 0#3 ∧ pm = true := by
  by_cases hs : s = 0#3 <;> cases pm <;> simp [classify, hs]

/-- R113: a flipped position is a data bit from position 4 on, and a parity bit below. -/
theorem extractNibble_oneHot : ∀ j : Position, extractNibble (oneHot j.toNat) =
    if 4 ≤ j.toNat then 1#4 <<< (j.toNat - 4) else 0#4 := by decide

/-- R115: the data bits after a flip of position `j`. -/
theorem extractNibble_xor_oneHot (c : Byte) (j : Position) :
    extractNibble (c ^^^ oneHot j.toNat) =
      if 4 ≤ j.toNat then c.extractLsb' 4 4 ^^^ 1#4 <<< (j.toNat - 4)
      else c.extractLsb' 4 4 := by
  rw [extractNibble_xor, extractNibble_oneHot, apply_ite (extractNibble c ^^^ ·), BitVec.xor_zero]
  rfl

/-- R115: without syndrome at most the overall parity bit is flipped, which is no data bit. -/
theorem decodeByte_nibble_of_syndrome_eq_zero (d : Config.DoubleFlip) {c : Byte}
    (hs : syndrome c = 0#3) : (decodeByte d c).1 = extractNibble c := by
  rw [decodeByte, hs]
  cases parityMismatch c with
  | false => rw [classifyCorrect_noError]
  | true => exact extractNibble_xor_one c

/-- R115: with a syndrome position `T[S]` is flipped, on a mismatch and under `flip`. -/
theorem decodeByte_nibble_of_flip {d : Config.DoubleFlip} {c : Byte} (hs : syndrome c ≠ 0#3)
    (hflip : parityMismatch c = true ∨ d = .flip) :
    (decodeByte d c).1 = extractNibble (c ^^^ oneHot (positionOf (syndrome c)).toNat) := by
  rw [decodeByte]
  cases hpm : parityMismatch c with
  | true => rw [classifyCorrect_singleBitError d c hs]
  | false =>
    obtain rfl := hflip.resolve_left (by simp [hpm])
    rw [(classifyCorrect_doubleBitError c hs).1]

/-- R115: under `noflip` the data bits of a DoubleBitError stay as received. -/
theorem decodeByte_nibble_of_noflip {c : Byte} (hs : syndrome c ≠ 0#3)
    (hpm : parityMismatch c = false) : (decodeByte .noflip c).1 = extractNibble c := by
  rw [decodeByte, hpm, (classifyCorrect_doubleBitError c hs).2]

/-- R118: the value of RSP_DATA after DECODE, unless `draw` leaves the nibble free. -/
theorem rspData_dec {p : Config.Params} {c : Byte}
    (h : classify (syndrome c) (parityMismatch c) ≠ .doubleBitError ∨ p.doubleFlip ≠ .draw)
    (s : State) :
    (performWith p (.dec c) s).rspData.value = 0#4 ++ (decodeByte p.doubleFlip c).1 := by
  rw [performWith_dec h]
  rfl

/-- R118: the upper half of RSP_DATA is 0 after every DECODE. -/
theorem exists_nibble_rspData_dec (p : Config.Params) (c : Byte) (s : State) :
    ∃ n : Nibble, (performWith p (.dec c) s).rspData.value = 0#4 ++ n := by
  rw [performWith]
  rcases decodeOp_cases p c s with ⟨-, -, hr⟩ | ⟨-, hr⟩
  · exact ⟨drawnNibble s, congrArg (·.rspData.value) hr⟩
  · exact ⟨(decodeByte p.doubleFlip c).1, congrArg (·.rspData.value) hr⟩

/-- Settles O29: the row of the classification table fixes the flipped position, which is a data bit
from position 4 on. -/
theorem nibbleFromReceivedDataBits : Obligations.NibbleFromReceivedDataBits := by
  intro s c h d data kind pos corrected
  have hdata (hdraw : kind ≠ .doubleBitError ∨ d ≠ .draw) : data = 0#4 ++ (decodeByte d c).1 :=
    rspData_dec hdraw s
  have hcorrected (hs : syndrome c ≠ 0#3) (hflip : parityMismatch c = true ∨ d = .flip) :
      (decodeByte d c).1 = corrected :=
    (decodeByte_nibble_of_flip hs hflip).trans (extractNibble_xor_oneHot c _)
  have hsingle := classify_eq_singleBitError_iff (syndrome c) (parityMismatch c)
  have hdouble := classify_eq_doubleBitError_iff (syndrome c) (parityMismatch c)
  refine ⟨fun hk => ?_, fun hk => ?_, fun hk hd => ?_, fun hk hd => ?_, fun _ _ => ?_,
    fun hk => ?_⟩
  · have hs : syndrome c = 0#3 := hk.elim (fun hk => ((classify_eq_noError_iff _ _).1 hk).1)
      fun hk => ((classify_eq_parityBitError_iff _ _).1 hk).1
    have hne : kind ≠ .doubleBitError := fun hk => (hdouble.1 hk).1 hs
    rw [hdata (.inl hne), decodeByte_nibble_of_syndrome_eq_zero d hs, extractNibble]
  · obtain ⟨hs, hpm⟩ := hsingle.1 hk
    rw [hdata (.inl (by rw [hk]; nofun)), hcorrected hs (.inl hpm)]
  · rw [hdata (.inr (by rw [hd]; nofun)), hcorrected (hdouble.1 hk).1 (.inr hd)]
  · obtain ⟨hs, hpm⟩ := hdouble.1 hk
    rw [hdata (.inr (by rw [hd]; nofun)), hd, decodeByte_nibble_of_noflip hs hpm, extractNibble]
  · exact exists_nibble_rspData_dec _ c s
  · have hs : syndrome c ≠ 0#3 := hk.elim (fun hk => (hsingle.1 hk).1) fun hk => (hdouble.1 hk).1
    exact Nat.one_le_iff_ne_zero.2 fun h0 => positionOf_ne_zero hs (BitVec.toNat_inj.1 h0)

/-! ### How often each kind occurs -/

/-- R86: a byte determines its codeword and its error, given by syndrome and mismatch. -/
theorem encodeNibble_xor_errorOf_inj {n m : Nibble} {s t : Syndrome} {a b : Bool}
    (h : encodeNibble n ^^^ errorOf s a = encodeNibble m ^^^ errorOf t b) :
    n = m ∧ s = t ∧ a = b := by
  have hs : s = t := by
    simpa only [syndrome_encodeNibble_xor, syndrome_errorOf] using congrArg syndrome h
  have hpm : a = b := by
    simpa only [parityMismatch_encodeNibble_xor, parityMismatch_errorOf] using
      congrArg parityMismatch h
  subst hs hpm
  exact ⟨encodeNibble_injective ((BitVec.xor_left_inj _).1 h), rfl, rfl⟩

/-- R86, R98: each pair of a syndrome and a mismatch that is classified as `kind` has as many bytes
as there are nibbles. -/
theorem countP_classify (kind : ErrorKind) :
    (List.finRange 256).countP (fun c =>
        classify (syndrome (BitVec.ofFin c)) (parityMismatch (BitVec.ofFin c)) == kind) =
      Fintype.card {row : Syndrome × Bool // classify row.1 row.2 = kind} * 16 := by
  rw [countP_finRange_eq_card (α := {row : Syndrome × Bool // classify row.1 row.2 = kind} × Nibble)
    (f := fun x => (encodeNibble x.2 ^^^ errorOf x.1.val.1 x.1.val.2).toFin)]
  · exact (Fintype.card_prod _ _).trans (congrArg _ (fintypeCard_bitVec 4))
  · rintro ⟨⟨⟨s, a⟩, _⟩, n⟩ ⟨⟨⟨t, b⟩, _⟩, m⟩ h
    obtain ⟨rfl, rfl, rfl⟩ := encodeNibble_xor_errorOf_inj (BitVec.toFin_inj.1 h)
    rfl
  · intro c
    rw [beq_iff_eq]
    constructor
    · intro hkind
      obtain ⟨n, hn⟩ := (syndrome_parityMismatch_eq_iff (BitVec.ofFin c) _ _).1 ⟨rfl, rfl⟩
      exact ⟨(⟨(_, _), hkind⟩, n), congrArg BitVec.toFin hn⟩
    · rintro ⟨⟨⟨⟨s, a⟩, hkind⟩, n⟩, rfl⟩
      obtain ⟨hs, hpm⟩ := (syndrome_parityMismatch_eq_iff _ s a).2 ⟨n, rfl⟩
      rw [BitVec.ofFin_toFin, hs, hpm]
      exact hkind

/-! ### The nearest codewords of a double error -/

/-- R73: distances between a byte and the codewords are those of its error. -/
theorem encodeNibble_xor_xor_encodeNibble_xor (m k : Nibble) (e : Byte) :
    encodeNibble m ^^^ e ^^^ encodeNibble (m ^^^ k) = e ^^^ encodeNibble k := by
  rw [encodeNibble_xor, BitVec.xor_comm (encodeNibble m) e, BitVec.xor_assoc, xor_cancel_left]

/-- R116: the error of a nonzero syndrome without mismatch is at distance 2 from four codewords. -/
theorem card_codewords_at_distance_two : ∀ s : Syndrome, s ≠ 0#3 →
    Fintype.card {k : Nibble // popcount (errorOf s false ^^^ encodeNibble k) = 2} = 4 := by
  decide

theorem countP_codewords_at_distance_two {c : Byte} (hs : syndrome c ≠ 0#3)
    (hpm : parityMismatch c = false) :
    (List.finRange 16).countP
      (fun n => popcount (c ^^^ encodeNibble (BitVec.ofFin n)) == 2) = 4 := by
  obtain ⟨m, hm⟩ := (syndrome_parityMismatch_eq_iff c (syndrome c) false).1 ⟨rfl, hpm⟩
  have hdistance (k : Nibble) :
      c ^^^ encodeNibble (m ^^^ k) = errorOf (syndrome c) false ^^^ encodeNibble k := by
    conv_lhs => rw [hm]
    exact encodeNibble_xor_xor_encodeNibble_xor m k _
  refine Eq.trans ?_ (card_codewords_at_distance_two (syndrome c) hs)
  refine countP_finRange_eq_card (f := fun k => (m ^^^ k.val).toFin)
    (fun _ _ h => Subtype.ext ((BitVec.xor_right_inj m).1 (BitVec.toFin_inj.1 h))) fun i => ?_
  rw [beq_iff_eq]
  constructor
  · intro hi
    have hshift : m ^^^ (m ^^^ BitVec.ofFin i) = BitVec.ofFin i := xor_cancel_left m _
    exact ⟨⟨m ^^^ BitVec.ofFin i, by rw [← hdistance, hshift, hi]⟩,
      (congrArg BitVec.toFin hshift).symm⟩
  · rintro ⟨⟨k, hk⟩, rfl⟩
    rw [BitVec.ofFin_toFin, hdistance, hk]

/-- Settles O30: the bytes of each row of the classification table are shifts of the 16 codewords,
and the shift of a DoubleBitError byte to its error keeps the distances to them. -/
theorem kindCountsOverAllBytes : Obligations.KindCountsOverAllBytes := by
  refine ⟨fun d => ?_, fun d c => ?_, fun d c hkind => ?_⟩
  · exact ⟨(countP_classify _).trans (by decide), (countP_classify _).trans (by decide),
      (countP_classify _).trans (by decide), (countP_classify _).trans (by decide)⟩
  · exact (classify_eq_noError_iff _ _).trans (isCodeword_iff c)
  · obtain ⟨hs, hpm⟩ := (classify_eq_doubleBitError_iff _ _).1 hkind
    exact countP_codewords_at_distance_two hs hpm

end Sys2Proof.Machine
end

section
/-! PROOFS. Exceptions: nothing stops the machine (spec/60_exceptions.md R126,
spec/70_reset_and_hazards.md R147). -/

namespace Sys2Proof.Machine

/-- A reset and an idle step always answer, so a cycle can stop only where the meaning it gives to
the request presented stops. -/
theorem cycle_answers {run : Instr → State → Host.Outcome State Fault Refusal}
    (hrun : ∀ i s, ∃ t, run i s = .next t) (s : State) : ∃ t, cycle run s = .next t := by
  unfold cycle cycleOn
  split
  case isTrue => exact ⟨_, rfl⟩
  case isFalse =>
    split
    case isTrue => exact hrun _ _
    case isFalse => exact ⟨_, rfl⟩

/-- Settles O9: every request answers, so every cycle over the requests does, at this machine's
parameters and at every other setting. -/
theorem noStepStops : Obligations.NoStepStops := by
  have hexec (i : Instr) (s : State) : ∃ t, exec i s = .next t := ⟨_, exec_eq_performWith i s⟩
  exact ⟨cycle_answers hexec, fun _ => cycle_answers fun _ _ => ⟨_, rfl⟩, hexec⟩

end Sys2Proof.Machine
end

section
/-! PROOFS. Reset: what one reset step leaves, runs of reset steps, and the launch state
(spec/70_reset_and_hazards.md R141, R142, R144). -/

namespace Sys2Proof.Machine

/-- What holds of the next `k + 1` listed inputs holds of the next step's and of the `k` after it. -/
theorem forall_take_succ_inputs_iff {P : StepInput → Prop} {s : State} {k : Nat}
    (hlen : k + 1 ≤ s.inputs.length) :
    (∀ inp ∈ s.inputs.take (k + 1), P inp) ↔
      P (currentInput s) ∧ ∀ inp ∈ s.inputs.tail.take k, P inp := by
  unfold currentInput
  cases hin : s.inputs with
  | nil => simp [hin] at hlen
  | cons inp rest => simp

/-- R142: holding `rst` after a reset leaves the registers as that reset left them, and the fault
list too unless the host reads. -/
theorem runSteps_resetOp_of_resets (k : Nat) (s : State) (hlen : k ≤ s.inputs.length)
    (hrst : ∀ inp ∈ s.inputs.take k, inp.rst = true) :
    ∃ u, runSteps k (resetOp s) = .next u ∧ u.rspValid = false ∧
      u.rspData = RspReg.unwritten 8 ∧ u.rspKind = RspReg.unwritten 2 ∧ u.refused = s.refused ∧
      ((∀ inp ∈ s.inputs.take k, inp.readData = false ∧ inp.readKind = false) →
        u.faults = s.faults) := by
  induction k generalizing s with
  | zero => exact ⟨resetOp s, by simp⟩
  | succ k ih =>
    obtain ⟨hcurrent, hrest⟩ := (forall_take_succ_inputs_iff hlen).1 hrst
    have hstep : step (resetOp s) = .next (resetOp (hostSide (currentInput s) (resetOp s))) :=
      step_of_reset hcurrent
    have hlenRest : k ≤ s.inputs.tail.length := by rw [List.length_tail]; omega
    obtain ⟨u, hrun, hvalid, hdata, hkind, hrefused, hfaults⟩ :=
      ih (hostSide (currentInput s) (resetOp s)) hlenRest hrest
    refine ⟨u, (runSteps_succ hstep k).trans hrun, hvalid, hdata, hkind, hrefused, fun hread => ?_⟩
    obtain ⟨⟨hreadData, hreadKind⟩, hreadRest⟩ := (forall_take_succ_inputs_iff hlen).1 hread
    rw [hfaults hreadRest, hostSide_faults, faultsOf_noRead hreadData hreadKind, List.append_nil,
      resetOp_faults]

/-- Settles O7: the first reset step leaves a reset state, in which the other `k` change nothing. -/
theorem heldResetIsOneReset : Obligations.HeldResetIsOneReset := by
  intro k s hlen hrst
  obtain ⟨hcurrent, hrest⟩ := (forall_take_succ_inputs_iff hlen).1 hrst
  have hstep := step_of_reset hcurrent
  have hlenRest : k ≤ s.inputs.tail.length := by rw [List.length_tail]; omega
  obtain ⟨u, hrun, hvalid, hdata, hkind, hrefused, hfaults⟩ :=
    runSteps_resetOp_of_resets k (hostSide (currentInput s) s) hlenRest hrest
  exact ⟨_, u, hstep, (runSteps_succ hstep k).trans hrun, hvalid, congrArg portValue hdata,
    congrArg portValue hkind, hrefused,
    fun hread => hfaults ((forall_take_succ_inputs_iff hlen).1 hread).2⟩

/-- Settles O41: a reset step keeps REFUSED and, without a read, the fault list, which are clear, and
clears the registers. -/
theorem launchState : Obligations.LaunchState := by
  refine ⟨rfl, rfl, rfl, rfl, rfl, fun s hrst hreadData hreadKind hrefused hfaults => ?_⟩
  refine ⟨_, step_of_reset hrst, rfl, rfl, rfl, hrefused, ?_⟩
  rw [resetOp_faults, hostSide_faults, faultsOf_noRead hreadData hreadKind, hfaults]
  rfl

end Sys2Proof.Machine
end
